-- ==== Sys2Proof/Word.lean ====
section
/-! DEFINITION. The words of the machine (00_scope.md R8, R9): bit vectors of the widths the spec names. Bit 0 is the
least significant bit. -/

namespace Sys2Proof

/-- A 32-bit pattern: an integer register, a lane, a data cell, a CSR entry, a cursor, or a binary32 value (R9). -/
abbrev Word := BitVec 32

/-- A 64-bit instruction word of program memory (30_encoding.md R110). -/
abbrev ProgWord := BitVec 64

/-- An 8-bit field: an opcode byte, a flag byte, a register field, or a byte of a load image (R110, 20_memory.md R100). -/
abbrev Byte := BitVec 8

end Sys2Proof
end

