-- ==== Sys2Proof/Config.lean ====
section
/-! DEFINITION. What the spec leaves open (00_scope.md R7, 92_eei_decisions.md "OPEN parameters"): every constant here is
opaque, so that nothing proved about the model rests on a value of it. The parameters the spec fixes (R6: 8192 program
words, 65536 cells, 24, 18, 16 and 16 registers, 4 lanes, 4 iterators, 1024 frontier entries) stand as numerals where they
are used. The OPEN parameter host_abort is an input of the machine (`State.hostAbort`, log entry 8). -/

namespace Sys2Proof

/-- The four binary32 operations NAN_RESULT is a function of (42_scalar.md R221). -/
inductive FpOp where
  | add | sub | mul | div
deriving DecidableEq, Repr

/-- DESIGN CHOICE (safe, log entry 4). The sign bit of NAN_RESULT(op, a, b), a free value (R221, D11). -/
opaque Config.nanSign : FpOp → Word → Word → BitVec 1

/-- DESIGN CHOICE (safe, log entry 4). The fraction of NAN_RESULT(op, a, b), less one: a NaN is a pattern whose fraction
is not 0 (R221, D11), so the fraction runs over 1 .. 2^23 - 1. -/
opaque Config.nanFractionPred : FpOp → Word → Word → Fin 8388607

/-- NAN_RESULT(op, a, b): a NaN, which one is free, a function of the operation and the operand bits alone (R221, D11). -/
def Config.nanResult (op : FpOp) (a b : Word) : Word :=
  Config.nanSign op a b ++ 0xFF#8 ++ BitVec.ofNat 23 ((Config.nanFractionPred op a b).val + 1)

/-- DESIGN CHOICE (safe, log entry 5). CMPF_UNORDERED: FLAGS[2:0] after a float CMP whose difference is a NaN, a free
value (42_scalar.md R227, D12). -/
opaque Config.cmpfUnordered : BitVec 3

/-- DESIGN CHOICE (safe, log entry 6). F2I_INVALID(x): the result of converting a NaN or an out-of-range value to an
integer, a free value that depends on the input bits alone (42_scalar.md R229, D13). -/
opaque Config.f2iInvalid : Word → Word

/-- DESIGN CHOICE (safe, log entry 7). MAX_NODES: the node capacity of the CSR store (20_memory.md R101, D39). -/
opaque Config.maxNodes : Nat

/-- DESIGN CHOICE (safe, log entry 7). MAX_EDGES: the edge capacity of the CSR store (20_memory.md R101, D39). -/
opaque Config.maxEdges : Nat

end Sys2Proof
end

