-- ==== Sys2Proof/Machine/Float.lean ====
section
/-! DEFINITION. binary32 arithmetic (42_scalar.md R221, R227, R229; 00_scope.md R10): round to nearest, ties to even,
subnormals kept, no exception flags. Magnitudes are exact natural numbers in units of 2^-149, the least positive binary32
value, so that every operation is computed exactly and rounded once. The IEEE 754 rules R221 names but does not spell out
(signed zeros, infinities) are PRESUMED from the standard (log entry 16). -/

namespace Sys2Proof.Machine

/-! ### The format (R221) -/

/-- The sign bit, bit 31. -/
def f32Negative (v : Word) : Bool := v.getLsbD 31

/-- The biased exponent, bits 30..23. -/
def f32Exponent (v : Word) : Nat := (v.extractLsb' 23 8).toNat

/-- The fraction, bits 22..0. -/
def f32Fraction (v : Word) : Nat := (v.extractLsb' 0 23).toNat

/-- A NaN: exponent 255 and a fraction that is not 0. -/
def f32IsNaN (v : Word) : Bool := f32Exponent v == 255 && f32Fraction v != 0

/-- An infinity: exponent 255 and fraction 0. -/
def f32IsInf (v : Word) : Bool := f32Exponent v == 255 && f32Fraction v == 0

/-- A finite value: any other exponent. -/
def f32IsFinite (v : Word) : Bool := f32Exponent v != 255

/-- The magnitude of a finite value in units of 2^-149: the fraction itself for exponent 0 (zeros and subnormals), the
fraction with its implicit leading one, scaled, for the others. -/
def f32Units (v : Word) : Nat :=
  if f32Exponent v = 0 then f32Fraction v else (2 ^ 23 + f32Fraction v) * 2 ^ (f32Exponent v - 1)

/-- The value of a finite pattern in units of 2^-149. -/
def f32Value (v : Word) : Int := if f32Negative v then -(f32Units v : Int) else (f32Units v : Int)

/-- The pattern of a sign and a magnitude pattern (bits 30..0). -/
def f32Pack (negative : Bool) (magnitude : Nat) : Word := BitVec.ofNat 32 ((if negative then 2 ^ 31 else 0) + magnitude)

/-- The value with the other sign. -/
def f32Negate (v : Word) : Word := v ^^^ 0x80000000#32

/-- The magnitude pattern of +∞. -/
abbrev f32InfMagnitude : Nat := 0x7F800000

/-! ### Rounding -/

/-- The quotient `num / den` rounded to the nearest natural number, ties to even. -/
def divRoundEven (num den : Nat) : Nat :=
  let q := num / den
  let twice := 2 * (num % den)
  if twice > den ∨ (twice = den ∧ q % 2 = 1) then q + 1 else q

/-- The magnitude pattern of the binary32 value nearest to `num / den` units of 2^-149, ties to even, +∞ on overflow
(R221). `shift` is how many units of 2^-149 (as a power of two) the last place of the result is worth. A significand of 2^24
after rounding carries into the exponent field, which is the next binade. -/
def roundUnits (num den : Nat) : Nat :=
  let shift := Nat.log2 (num / den) - 23
  min (shift * 2 ^ 23 + divRoundEven num (den * 2 ^ shift)) f32InfMagnitude

/-! ### The operations (R221) -/

/-- The binary32 sum of two operands; `nan` is the NaN it gives where the sum is one. -/
def f32Sum (nan a b : Word) : Word :=
  if f32IsNaN a || f32IsNaN b then nan
  else if f32IsInf a then (if f32IsInf b && f32Negative a != f32Negative b then nan else a)
  else if f32IsInf b then b
  else
    let v := f32Value a + f32Value b
    if v = 0 then f32Pack (f32Negative a && f32Negative b) 0
    else f32Pack (decide (v < 0)) (roundUnits v.natAbs 1)

/-- fadd32 (R9, R221). -/
def fadd32 (a b : Word) : Word := f32Sum (Config.nanResult .add a b) a b

/-- fsub32 (R9, R221). -/
def fsub32 (a b : Word) : Word := f32Sum (Config.nanResult .sub a b) a (f32Negate b)

/-- fmul32 (R9, R221). -/
def fmul32 (a b : Word) : Word :=
  let negative := f32Negative a != f32Negative b
  if f32IsNaN a || f32IsNaN b then Config.nanResult .mul a b
  else if f32IsInf a || f32IsInf b then
    if (f32IsFinite a && f32Units a == 0) || (f32IsFinite b && f32Units b == 0) then Config.nanResult .mul a b
    else f32Pack negative f32InfMagnitude
  else f32Pack negative (roundUnits (f32Units a * f32Units b) (2 ^ 149))

/-- fdiv32 (R9, R221): a finite value over zero is an infinity; 0/0 and ∞/∞ are NaNs. -/
def fdiv32 (a b : Word) : Word :=
  let negative := f32Negative a != f32Negative b
  if f32IsNaN a || f32IsNaN b then Config.nanResult .div a b
  else if f32IsInf a then (if f32IsInf b then Config.nanResult .div a b else f32Pack negative f32InfMagnitude)
  else if f32IsInf b then f32Pack negative 0
  else if f32Units b = 0 then
    (if f32Units a = 0 then Config.nanResult .div a b else f32Pack negative f32InfMagnitude)
  else f32Pack negative (roundUnits (f32Units a * 2 ^ 149) (f32Units b))

/-! ### Conversions (42_scalar.md R229) -/

/-- i2f: an i32 rounded to binary32, nearest even; 0 gives +0.0. -/
def i2f (x : Word) : Word := f32Pack (decide (x.toInt < 0)) (roundUnits (x.toInt.natAbs * 2 ^ 149) 1)

/-- f2i: truncation toward zero; F2I_INVALID(x) for a NaN and for a value outside the i32 range. -/
def f2i (x : Word) : Word :=
  let t := (f32Value x).tdiv (2 ^ 149)
  if f32IsFinite x && decide (-2 ^ 31 ≤ t) && decide (t ≤ 2 ^ 31 - 1) then BitVec.ofInt 32 t else Config.f2iInvalid x

end Sys2Proof.Machine
end

