-- ==== Sys2Proof/Syntax.lean ====
section
/-! DEFINITION. The instructions: one constructor for each of the 38 rows of spec/opcode_table.json, carrying the fields
the row uses (30_encoding.md R113, R115). Register fields keep the whole field value, since an index is checked when the
instruction executes, not when it decodes (R114, R118). -/

namespace Sys2Proof

/-- The 38 opcodes of the enumerated set (30_encoding.md R113). -/
inductive Opcode where
  | halt | jmp | bz | bnz | blt | bge
  | niter | nnext | eiter | enext | hase | deg
  | add | sub | mul | div
  | cmp | mov | movc
  | ld | st
  | fpush | fpop | fempty | fswap | ffill
  | vadd | vsub | vmul | vdiv | vld | vst | vset | vsum
  | parallel | barrier | lock | unlock
deriving DecidableEq, Repr

/-- The data bank the F flag selects: F = 0 the integer bank, F = 1 the float bank (10_state.md R37). -/
inductive Bank where
  | int | float
deriving DecidableEq, Repr

/-- A source-2 operand: A2 is a register index (I = 0) or a 32-bit immediate (I = 1) (30_encoding.md R115, R116). -/
inductive Src2 where
  | reg (index : Word)
  | imm (value : Word)
deriving DecidableEq, Repr

/-- A single source operand: a register index in A1 (I = 0) or a 32-bit immediate in A2 (I = 1); the other field is
ignored (30_encoding.md R115; 42_scalar.md R228; 43_memory_ops.md R260; 45_vector.md R328). -/
inductive Src1 where
  | reg (index : Byte)
  | imm (value : Word)
deriving DecidableEq, Repr

/-- The instructions. `b` is the bank F selects; a field the row does not use (R115, R121) is no part of the instruction. -/
inductive Instr where
  /-- HALT (40_control.md R151). -/
  | halt
  /-- JMP target (R152). -/
  | jmp (target : Word)
  /-- BZ target (R153). -/
  | bz (target : Word)
  /-- BNZ target (R154). -/
  | bnz (target : Word)
  /-- BLT target (R155). -/
  | blt (target : Word)
  /-- BGE target (R156). -/
  | bge (target : Word)
  /-- NITER i (41_graph.md R187). -/
  | niter (i : Byte)
  /-- NNEXT i (R188). -/
  | nnext (i : Byte)
  /-- EITER (R189). -/
  | eiter
  /-- ENEXT (R190). -/
  | enext
  /-- HASE (R191). -/
  | hase
  /-- DEG r (R192). -/
  | deg (r : Byte)
  /-- ADD d, s1, s2 (42_scalar.md R223). -/
  | add (b : Bank) (d s1 : Byte) (s2 : Src2)
  /-- SUB d, s1, s2 (R224). -/
  | sub (b : Bank) (d s1 : Byte) (s2 : Src2)
  /-- MUL d, s1, s2 (R225). -/
  | mul (b : Bank) (d s1 : Byte) (s2 : Src2)
  /-- DIV d, s1, s2 (R226). -/
  | div (b : Bank) (d s1 : Byte) (s2 : Src2)
  /-- CMP s1, s2 (R227). -/
  | cmp (b : Bank) (s1 : Byte) (s2 : Src2)
  /-- MOV d, s (R228). -/
  | mov (b : Bank) (d : Byte) (s : Src1)
  /-- MOVC d, s: `b` is the bank of the destination, the source is of the other bank (R229). -/
  | movc (b : Bank) (d s : Byte)
  /-- LD d, a (43_memory_ops.md R261). -/
  | ld (b : Bank) (d : Byte) (a : Src1)
  /-- ST d, a (R262). -/
  | st (b : Bank) (d : Byte) (a : Src1)
  /-- FPUSH r (44_frontier.md R287). -/
  | fpush (r : Byte)
  /-- FPOP r (R288). -/
  | fpop (r : Byte)
  /-- FEMPTY (R289). -/
  | fempty
  /-- FSWAP (R290). -/
  | fswap
  /-- FFILL (R291). -/
  | ffill
  /-- VADD vd, vs1, vs2 (45_vector.md R322). -/
  | vadd (b : Bank) (d s1 : Byte) (s2 : Word)
  /-- VSUB vd, vs1, vs2 (R323). -/
  | vsub (b : Bank) (d s1 : Byte) (s2 : Word)
  /-- VMUL vd, vs1, vs2 (R324). -/
  | vmul (b : Bank) (d s1 : Byte) (s2 : Word)
  /-- VDIV vd, vs1, vs2 (R325). -/
  | vdiv (b : Bank) (d s1 : Byte) (s2 : Word)
  /-- VLD vd, a (R326). -/
  | vld (b : Bank) (d : Byte) (a : Src1)
  /-- VST vs, a (R327). -/
  | vst (b : Bank) (d : Byte) (a : Src1)
  /-- VSET vd, s (R328). -/
  | vset (b : Bank) (d : Byte) (s : Src1)
  /-- VSUM d, vs (R329). -/
  | vsum (b : Bank) (d v : Byte)
  /-- PARALLEL (46_multicore.md R360). -/
  | parallel
  /-- BARRIER (R361). -/
  | barrier
  /-- LOCK (R362). -/
  | lock
  /-- UNLOCK (R363). -/
  | unlock
deriving DecidableEq, Repr

end Sys2Proof
end

