-- ==== Sys2Proof/Machine/State.lean ====
section
/-! DEFINITION. The state of the block, every piece the spec gives it (10_state.md R30 to R57), as plain data, and its
value after construction and reset (10_state.md R55, 70_reset_and_hazards.md R400, R402). -/

namespace Sys2Proof.Machine

/-- A memory of cells of `w` bits, as a list of (cell index, value) pairs. Canonical form (`Memory.wf`): indices strictly
rising, no entry equal to `Memory.unlisted`. The unit is the spec's own: data memory is not byte-addressed
(20_memory.md R80, R83; DESIGN CHOICE, safe, log entry 1). -/
abbrev Memory (w : Nat) := List (Nat × BitVec w)

/-- What a cell or word that is not listed reads as: 0 (20_memory.md R84, R100; 70_reset_and_hazards.md R400, R402;
DEDUCED, safe, log entry 2). -/
abbrev Memory.unlisted {w : Nat} : BitVec w := 0#w

/-- The four lanes of a vector register (10_state.md R34, R35; 45_vector.md R320). -/
structure Lanes where
  l0 : Word
  l1 : Word
  l2 : Word
  l3 : Word
deriving DecidableEq, Repr

/-- The kinds of a frontier (10_state.md R49, 44_frontier.md R286). -/
inductive FrontierKind where
  | queue | priorityQueue | bucketQueue | set
deriving DecidableEq, Repr

/-- One frontier: a ring buffer of 1024 entries with two 64-bit counters (10_state.md R49, 44_frontier.md R280). -/
structure Frontier where
  kind : FrontierKind
  front : BitVec 64
  back : BitVec 64
  /-- slot[0..1023] -/
  slot : Memory 32
deriving DecidableEq, Repr

/-- The CSR store (10_state.md R50): the node count and the three arrays of i32 entries. row_len, col_len and val_len are
the lengths of the lists. -/
structure Csr where
  n : BitVec 32
  rowIndex : List Word
  colIndex : List Word
  values : List Word
deriving DecidableEq, Repr

/-- The pipeline state PSTATE (10_state.md R51). -/
inductive PState where
  | running | halted | errored
deriving DecidableEq, Repr

/-- The causes of a stop (60_exceptions.md R371). The codes are `Cause.code`. -/
inductive Cause where
  | noError | decode | branchTarget | memAddress | iterIndex | divZero | regIndex | nodeRange | csrBounds
  | frontierFull | frontierEmpty | frontierKind | hostAbort
deriving DecidableEq, Repr

/-- The state of the block. -/
structure State where
  /-- R[0..23], the storage cell of Rzero (index 20) and Rcore (21) among them (R30, R31, R32). -/
  r : Vector Word 24
  /-- F[0..17], the storage cell of Fzero (index 17) among them (R33). -/
  f : Vector Word 18
  /-- VR[0..15] (R34). -/
  vr : Vector Lanes 16
  /-- VF[0..15] (R35). -/
  vf : Vector Lanes 16
  /-- PC, a program word index (R38). -/
  pc : BitVec 32
  /-- FLAGS: bit 0 Z, bit 1 N, bit 2 P (R40). -/
  flags : BitVec 8
  /-- The last-decoded-opcode latch ISA (R43). -/
  isa : Byte
  /-- The decoded destination latch (R44). -/
  a0 : Byte
  /-- The decoded source-1 latch (R44). -/
  a1 : Byte
  /-- The decoded source-2 or immediate latch (R44). -/
  a2 : Word
  /-- The decoded float immediate FA (R45). -/
  fa : Word
  /-- The executed-instruction counter (R46). -/
  clock : BitVec 64
  /-- niter[0..3] (R47). -/
  niter : Vector (BitVec 32) 4
  /-- eiter (R48). -/
  eiter : BitVec 32
  /-- Q[0] and Q[1] (R49). -/
  q : Vector Frontier 2
  /-- CUR: the current frontier is Q[CUR], the next frontier Q[1-CUR] (R49). -/
  cur : Fin 2
  /-- The CSR store (R50). -/
  graph : Csr
  /-- PSTATE (R51). -/
  pstate : PState
  /-- ERR_CAUSE (R52). -/
  errCause : BitVec 8
  /-- EXIT_PC (R52). -/
  exitPc : BitVec 32
  /-- ERR_WORD (R52). -/
  errWord : BitVec 64
  /-- Program memory, 8192 words (R53). -/
  prog : Memory 64
  /-- Data memory, 65536 cells (R54). -/
  mem : Memory 32
  /-- The level of the input port host_abort, sampled at the debug hook point (60_exceptions.md R380, R382). An input held
  in State, the model's own field (DESIGN CHOICE, unsafe over many steps, log entry 8). -/
  hostAbort : Bool
deriving DecidableEq, Repr

/-- The reasons a step could stop with a fault. There is none: the spec gives every situation an effect on the state, an
error being a next state in PSTATE ERRORED (60_exceptions.md R370 to R374; log entry 14). Safe. -/
inductive Fault where
deriving DecidableEq, Repr

/-- The reasons a step could refuse an instruction. -/
inductive Refusal where
  /-- Raised by an arm of `exec` whose instruction has no meaning yet, and by nothing else; no arm raises it now. Safe: the
  model stops where the hardware goes on. -/
  | notModelled (mnemonic : String)
deriving DecidableEq, Repr

/-- What a step answers. -/
abbrev Result := Host.Outcome State Fault Refusal

/-- The empty frontier reset leaves: kind QUEUE, front = back = 0 (R55). Its slots, which no operation can read
(44_frontier.md R280), list nothing (DESIGN CHOICE 0, log entry 3). -/
def Frontier.reset : Frontier := { kind := .queue, front := 0, back := 0, slot := [] }

/-- The graph of a newly constructed block: n = 0 and empty arrays (70_reset_and_hazards.md R402). -/
def Csr.empty : Csr := { n := 0, rowIndex := [], colIndex := [], values := [] }

/-- Four zero lanes. -/
def Lanes.zero : Lanes := ⟨0, 0, 0, 0⟩

/-- The newly constructed block after reset: every value as R55, R400 and R402 state it. -/
def State.reset : State where
  r := Vector.replicate 24 0
  f := Vector.replicate 18 0
  vr := Vector.replicate 16 Lanes.zero
  vf := Vector.replicate 16 Lanes.zero
  pc := 0
  flags := 0
  isa := 0
  a0 := 0
  a1 := 0
  a2 := 0
  fa := 0
  clock := 0
  niter := Vector.replicate 4 0
  eiter := 0
  q := Vector.replicate 2 Frontier.reset
  cur := 0
  graph := Csr.empty
  pstate := .running
  errCause := 0
  exitPc := 0
  errWord := 0
  prog := []
  mem := []
  hostAbort := false

end Sys2Proof.Machine
end

