-- ==== Sys2Proof/Machine/Ops.lean ====
section
/-! DEFINITION. The named operations over memory, registers, cursors and frontiers, and the one shared operation that
stops the block (taking an error): every meaning is written over these. -/

namespace Sys2Proof.Machine

/-! ### Memory (20_memory.md R80 to R84) -/

/-- The value at a cell index: `Memory.unlisted` where the list has no entry for it. -/
def Memory.read {w : Nat} : Memory w → Nat → BitVec w
  | [], _ => Memory.unlisted
  | c :: m, a => if a = c.1 then c.2 else Memory.read m a

/-- Put an entry at its place in the rising order. -/
def Memory.insert {w : Nat} : Memory w → Nat → BitVec w → Memory w
  | [], a, v => [(a, v)]
  | c :: m, a, v =>
    if a < c.1 then (a, v) :: c :: m
    else if a = c.1 then (a, v) :: m
    else c :: Memory.insert m a v

/-- Take every entry of an index away. -/
def Memory.erase {w : Nat} (m : Memory w) (a : Nat) : Memory w := m.filter (fun c => c.1 != a)

/-- Write one cell; writing what an unlisted cell reads as removes the entry, so that equal memories are equal lists. -/
def Memory.write {w : Nat} (m : Memory w) (a : Nat) (v : BitVec w) : Memory w :=
  if v = Memory.unlisted then Memory.erase m a else Memory.insert m a v

/-- Write consecutive cells from an index on. -/
def Memory.writeList {w : Nat} : Memory w → Nat → List (BitVec w) → Memory w
  | m, _, [] => m
  | m, a, v :: vs => Memory.writeList (Memory.write m a v) (a + 1) vs

/-- The canonical form: indices strictly rising, no entry equal to what an unlisted cell reads as. -/
abbrev Memory.wf {w : Nat} (m : Memory w) : Prop :=
  m.Pairwise (fun c d => c.1 < d.1) ∧ ∀ c ∈ m, c.2 ≠ Memory.unlisted

/-- Every listed index is below a bound. -/
abbrev Memory.below {w : Nat} (m : Memory w) (bound : Nat) : Prop := ∀ c ∈ m, c.1 < bound

/-! ### Register names (30_encoding.md R117) -/

/-- Rnode is R[0]. -/
abbrev rnode : Fin 24 := 0
/-- Rnbr is R[1]. -/
abbrev rnbr : Fin 24 := 1
/-- Rval is R[2]. -/
abbrev rval : Fin 24 := 2
/-- Rzero is R[20]. -/
abbrev rzero : Fin 24 := 20
/-- Fzero is F[17]. -/
abbrev fzero : Fin 18 := 17

/-! ### Register ports (10_state.md R30 to R35) -/

/-- The integer read port: Rzero reads 0 whatever its cell holds (R31). -/
def State.readR (s : State) (i : Fin 24) : Word := if i = rzero then 0 else s.r[i.val]

/-- The integer write port: stored even for Rzero (R31). -/
def State.writeR (s : State) (i : Fin 24) (v : Word) : State := { s with r := s.r.set i.val v }

/-- The float read port: Fzero reads +0.0 whatever its cell holds (R33). -/
def State.readF (s : State) (i : Fin 18) : Word := if i = fzero then 0 else s.f[i.val]

/-- The float write port: stored even for Fzero (R33). -/
def State.writeF (s : State) (i : Fin 18) (v : Word) : State := { s with f := s.f.set i.val v }

/-- Read an integer vector register (R34). -/
def State.readVR (s : State) (i : Fin 16) : Lanes := s.vr[i.val]

/-- Write all four lanes of an integer vector register (R34). -/
def State.writeVR (s : State) (i : Fin 16) (v : Lanes) : State := { s with vr := s.vr.set i.val v }

/-- Read a float vector register (R35). -/
def State.readVF (s : State) (i : Fin 16) : Lanes := s.vf[i.val]

/-- Write all four lanes of a float vector register (R35). -/
def State.writeVF (s : State) (i : Fin 16) (v : Lanes) : State := { s with vf := s.vf.set i.val v }

/-! ### Cursors and control registers (10_state.md R38 to R48) -/

/-- Write PC (R39). -/
def State.setPc (s : State) (t : Word) : State := { s with pc := t }

/-- Read a neighbour cursor (R47). -/
def State.readNiter (s : State) (i : Fin 4) : BitVec 32 := s.niter[i.val]

/-- Write a neighbour cursor (R47). -/
def State.writeNiter (s : State) (i : Fin 4) (v : BitVec 32) : State := { s with niter := s.niter.set i.val v }

/-- Write the edge cursor (R48). -/
def State.writeEiter (s : State) (v : BitVec 32) : State := { s with eiter := v }

/-! ### Data memory (20_memory.md R80, R81) -/

/-- MemRead(a, 1) (00_scope.md R10). -/
def State.readMem (s : State) (a : Nat) : Word := Memory.read s.mem a

/-- MemWrite(a, 1, v) (00_scope.md R10). -/
def State.writeMem (s : State) (a : Nat) (v : Word) : State := { s with mem := Memory.write s.mem a v }

/-! ### Lanes (45_vector.md R320) -/

/-- Lane k of a vector register. -/
def Lanes.lane (v : Lanes) : Fin 4 → Word
  | 0 => v.l0
  | 1 => v.l1
  | 2 => v.l2
  | 3 => v.l3

/-- Lane k of the result from lane k of the operands. -/
def Lanes.zipWith (op : Word → Word → Word) (a b : Lanes) : Lanes :=
  ⟨op a.l0 b.l0, op a.l1 b.l1, op a.l2 b.l2, op a.l3 b.l3⟩

/-- The scalar in every lane (R328). -/
def Lanes.broadcast (v : Word) : Lanes := ⟨v, v, v, v⟩

/-- The lanes added to an accumulator in the order 0, 1, 2, 3 (R329). -/
def Lanes.accumulate (op : Word → Word → Word) (acc : Word) (v : Lanes) : Word :=
  op (op (op (op acc v.l0) v.l1) v.l2) v.l3

/-- Some lane is 0 (R325). -/
def Lanes.anyZero (v : Lanes) : Bool := v.l0 == 0 || v.l1 == 0 || v.l2 == 0 || v.l3 == 0

/-- MemRead(a, 4), lane k from cell a + k (20_memory.md R90). -/
def State.readMem4 (s : State) (a : Nat) : Lanes :=
  ⟨s.readMem a, s.readMem (a + 1), s.readMem (a + 2), s.readMem (a + 3)⟩

/-- MemWrite(a, 4, v), lane k to cell a + k (20_memory.md R90). -/
def State.writeMem4 (s : State) (a : Nat) (v : Lanes) : State :=
  { s with mem := Memory.writeList s.mem a [v.l0, v.l1, v.l2, v.l3] }

/-! ### Frontiers (44_frontier.md R280 to R286) -/

/-- The 2-bit code of a kind (10_state.md R49, D29). -/
def FrontierKind.code : FrontierKind → BitVec 2
  | .queue => 0
  | .priorityQueue => 1
  | .bucketQueue => 2
  | .set => 3

/-- size(Q) = (back - front) mod 2^64 (R280). -/
def Frontier.size (q : Frontier) : Nat := (q.back - q.front).toNat

/-- empty(Q) (R280). -/
def Frontier.isEmpty (q : Frontier) : Bool := q.front == q.back

/-- full(Q) (R280; log entry 19). -/
def Frontier.isFull (q : Frontier) : Bool := q.size == 1024

/-- The slot of a counter: c mod 1024 (R280). -/
def Frontier.slotIndex (c : BitVec 64) : Nat := c.toNat % 1024

/-- init(Q, kind): empties the queue and records the kind; the slots keep what they hold (R281). -/
def Frontier.init (q : Frontier) (kind : FrontierKind) : Frontier := { q with front := 0, back := 0, kind := kind }

/-- Store at back and advance it, with no check. -/
def Frontier.enqueue (q : Frontier) (x : Word) : Frontier :=
  { q with slot := Memory.write q.slot (Frontier.slotIndex q.back) x, back := q.back + 1 }

/-- The oldest queued value. -/
def Frontier.oldest (q : Frontier) : Word := Memory.read q.slot (Frontier.slotIndex q.front)

/-- Only the kind QUEUE has behaviour (R286). -/
def Frontier.needQueue (q : Frontier) : Except Cause Unit := if q.kind = .queue then .ok () else .error .frontierKind

/-- push(Q, x) (R282). -/
def Frontier.push (q : Frontier) (x : Word) : Except Cause Frontier := do
  q.needQueue
  if q.isFull then .error .frontierFull else .ok (q.enqueue x)

/-- pop(Q): the value and the queue after it (R283). -/
def Frontier.pop (q : Frontier) : Except Cause (Word × Frontier) := do
  q.needQueue
  if q.isEmpty then .error .frontierEmpty else .ok (q.oldest, { q with front := q.front + 1 })

/-- is_empty(Q) (R284). -/
def Frontier.testEmpty (q : Frontier) : Except Cause Bool := do
  q.needQueue
  .ok q.isEmpty

/-- Push 0 .. count-1 in ascending order: the kind and the room for all of them are checked before any push (R291). -/
def Frontier.fill (q : Frontier) (count : Nat) : Except Cause Frontier := do
  q.needQueue
  if q.size + count > 1024 then .error .frontierFull
  else .ok ((List.range count).foldl (fun p u => p.enqueue (BitVec.ofNat 32 u)) q)

/-- 1 - CUR (10_state.md R49). -/
def otherRole (c : Fin 2) : Fin 2 := 1 - c

/-- current = Q[CUR] (R285). -/
def State.currentQ (s : State) : Frontier := s.q[s.cur.val]

/-- next = Q[1-CUR] (R285). -/
def State.nextQ (s : State) : Frontier := s.q[(otherRole s.cur).val]

/-- Replace the current frontier. -/
def State.setCurrentQ (s : State) (q : Frontier) : State := { s with q := s.q.set s.cur.val q }

/-- Replace the next frontier. -/
def State.setNextQ (s : State) (q : Frontier) : State := { s with q := s.q.set (otherRole s.cur).val q }

/-- Exchange the roles and empty the new next, which keeps its kind (R290). -/
def State.swapRoles (s : State) : State :=
  { s with cur := otherRole s.cur, q := s.q.set s.cur.val (s.currentQ.init s.currentQ.kind) }

/-! ### Stopping: halting and taking an error (30_encoding.md R130, R134; 60_exceptions.md R371 to R374) -/

/-- The cause codes (60_exceptions.md R371, D46). -/
def Cause.code : Cause → BitVec 8
  | .noError => 0
  | .decode => 1
  | .branchTarget => 2
  | .memAddress => 3
  | .iterIndex => 4
  | .divZero => 5
  | .regIndex => 6
  | .nodeRange => 7
  | .csrBounds => 8
  | .frontierFull => 9
  | .frontierEmpty => 10
  | .frontierKind => 11
  | .hostAbort => 12

/-- stop(s, c, p): PSTATE, ERR_CAUSE and EXIT_PC are written, nothing else (R130, R373). -/
def State.stop (s : State) (p : PState) (c : Cause) (exitPc : Word) : State :=
  { s with pstate := p, errCause := c.code, exitPc := exitPc }

/-- Taking an error: status ERROR with its cause. EXIT_PC is the index of the failing word, one below PC, which the fetch
has advanced (60_exceptions.md R373, R374; 30_encoding.md R130 "`fpc` equals GX's last PC is PC - 1"). There is no handler
and no return from an error: only the reset port leaves ERRORED (R378). -/
def State.raise (s : State) (c : Cause) : State := s.stop .errored c (s.pc - 1)

/-- Status HALT: cause NONE, EXIT_PC the index of the halting word (40_control.md R151). -/
def State.halt (s : State) : State := s.stop .halted .noError (s.pc - 1)

/-- The end of an execute (60_exceptions.md R370): the next state of status CONTINUE, or the error taken on the state the
instruction started from, so that an error writes none of the instruction's state (R374). -/
def conclude (s : State) (r : Except Cause State) : Result :=
  match r with
  | .ok t => .next t
  | .error c => .next (s.raise c)

end Sys2Proof.Machine
end

