-- ==== Sys2Proof/Machine/Flags.lean ====
section
/-! DEFINITION. FLAGS: its three bits, who writes them and how (10_state.md R40 to R42; 42_scalar.md R227). -/

namespace Sys2Proof.Machine

/-- FLAGS.Z, bit 0 (R40). -/
def State.flagZ (s : State) : Bool := s.flags.getLsbD 0

/-- FLAGS.N, bit 1 (R40). -/
def State.flagN (s : State) : Bool := s.flags.getLsbD 1

/-- FLAGS.P, bit 2 (R40). -/
def State.flagP (s : State) : Bool := s.flags.getLsbD 2

/-- Write Z only: N, P and the other bits keep their values (R41). -/
def State.setZ (s : State) (z : Bool) : State :=
  { s with flags := if z then s.flags ||| 0x01#8 else s.flags &&& 0xFE#8 }

/-- Write all of FLAGS, as CMP does (42_scalar.md R227). -/
def State.setFlags (s : State) (v : BitVec 8) : State := { s with flags := v }

/-- (Z, N, P) of the sign of an exact difference, exactly one of them set, bits 3 to 7 clear (R227). -/
def signFlags (d : Int) : BitVec 8 := if d = 0 then 0x01 else if d < 0 then 0x02 else 0x04

/-- FLAGS after an integer CMP: the difference is exact, with no wrap (R227, D10). -/
def cmpIntFlags (a b : Word) : BitVec 8 := signFlags (a.toInt - b.toInt)

/-- FLAGS after a float CMP: by the sign of fsub32(a, b), an infinity being above or below every value; CMPF_UNORDERED in
FLAGS[2:0] when the difference is a NaN (R227, D12). -/
def cmpFloatFlags (a b : Word) : BitVec 8 :=
  let d := fsub32 a b
  if f32IsNaN d then Config.cmpfUnordered.setWidth 8 else signFlags (f32Value d)

/-- FLAGS after CMP in a bank (R227). -/
def cmpFlags : Bank → Word → Word → BitVec 8
  | .int, a, b => cmpIntFlags a b
  | .float, a, b => cmpFloatFlags a b

end Sys2Proof.Machine
end

