-- ==== Sys2Proof/WellFormed.lean ====
section
/-! DEFINITION. Well-formed instructions: those whose operand FIELDS alone pass every check their rule makes (register
indices below the bank size, 10_state.md R36; iterator index below 4, 41_graph.md R187; branch target below 8192,
40_control.md R150). An ill-formed instruction still decodes (30_encoding.md R114): it executes and raises the error its
rule names. -/

namespace Sys2Proof

/-- The number of scalar registers of a bank: 24 integer, 18 float (10_state.md R30, R33). -/
abbrev Bank.scalars : Bank → Nat
  | .int => 24
  | .float => 18

/-- The other scalar bank, from which MOVC reads (42_scalar.md R229). -/
abbrev Bank.other : Bank → Bank
  | .int => .float
  | .float => .int

/-- A scalar register field names a register of the bank (10_state.md R36). -/
def scalarOk (b : Bank) (field : Byte) : Bool := field.toNat < b.scalars

/-- A vector register field names one of the 16 registers of VR or VF (10_state.md R34, R35, R36). -/
def vectorOk (field : Byte) : Bool := field.toNat < 16

/-- A source-2 operand names a register of the bank or is an immediate (30_encoding.md R118). -/
def Src2.ok (b : Bank) : Src2 → Bool
  | .reg i => i.toNat < b.scalars
  | .imm _ => true

/-- A single source operand names a register of the bank or is an immediate (30_encoding.md R118). -/
def Src1.ok (b : Bank) : Src1 → Bool
  | .reg i => scalarOk b i
  | .imm _ => true

/-- A branch target is a word of program memory (40_control.md R150). -/
def targetOk (t : Word) : Bool := t.toNat < 8192

/-- An iterator field names one of niter[0..3] (41_graph.md R187). -/
def iterOk (i : Byte) : Bool := i.toNat < 4

/-- The operand-field checks of an instruction's rule, all passed. -/
def Instr.wellFormed : Instr → Bool
  | .halt | .eiter | .enext | .hase => true
  | .jmp t | .bz t | .bnz t | .blt t | .bge t => targetOk t
  | .niter i | .nnext i => iterOk i
  | .deg r | .fpush r | .fpop r => scalarOk .int r
  | .add b d s1 s2 | .sub b d s1 s2 | .mul b d s1 s2 | .div b d s1 s2 => scalarOk b d && scalarOk b s1 && s2.ok b
  | .cmp b s1 s2 => scalarOk b s1 && s2.ok b
  | .mov b d s => scalarOk b d && s.ok b
  | .movc b d s => scalarOk b d && scalarOk b.other s
  | .ld b d a | .st b d a => scalarOk b d && a.ok .int
  | .fempty | .fswap | .ffill => true
  | .vadd _ d s1 s2 | .vsub _ d s1 s2 | .vmul _ d s1 s2 | .vdiv _ d s1 s2 => vectorOk d && vectorOk s1 && decide (s2.toNat < 16)
  | .vld _ d a | .vst _ d a => vectorOk d && a.ok .int
  | .vset b d s => vectorOk d && s.ok b
  | .vsum b d v => scalarOk b d && vectorOk v
  | .parallel | .barrier | .lock | .unlock => true

end Sys2Proof
end

