-- ==== Sys2Proof/Machine/Operands.lean ====
section
/-! DEFINITION. Every operand form: register fields with their index check, sources that are a register or an immediate,
effective addresses, branch targets and iterator indices; and the arithmetic the banks share (42_scalar.md R220, R222).
Each form answers its operand or the error its rule names (60_exceptions.md R376). -/

namespace Sys2Proof.Machine

/-! ### Register fields (10_state.md R36, 30_encoding.md R118) -/

/-- A scalar register field: the whole field is the index, and an index at or above the bank size is REG_INDEX. -/
def scalarIndex (b : Bank) (field : Nat) : Except Cause (Fin b.scalars) :=
  if h : field < b.scalars then .ok ⟨field, h⟩ else .error .regIndex

/-- A vector register field (45_vector.md R321). -/
def vectorIndex (field : Nat) : Except Cause (Fin 16) :=
  if h : field < 16 then .ok ⟨field, h⟩ else .error .regIndex

/-- An iterator field (41_graph.md R187). -/
def iterIndex (field : Byte) : Except Cause (Fin 4) :=
  if h : field.toNat < 4 then .ok ⟨field.toNat, h⟩ else .error .iterIndex

/-! ### The three-bank multiplexer (10_state.md R37) -/

/-- Read a scalar register of a bank. -/
def State.readScalar (s : State) : (b : Bank) → Fin b.scalars → Word
  | .int, i => s.readR i
  | .float, i => s.readF i

/-- Write a scalar register of a bank. -/
def State.writeScalar (s : State) : (b : Bank) → Fin b.scalars → Word → State
  | .int, i, v => s.writeR i v
  | .float, i, v => s.writeF i v

/-- Read a vector register of a bank. -/
def State.readVector (s : State) (b : Bank) (i : Fin 16) : Lanes :=
  match b with
  | .int => s.readVR i
  | .float => s.readVF i

/-- Write a vector register of a bank. -/
def State.writeVector (s : State) (b : Bank) (i : Fin 16) (v : Lanes) : State :=
  match b with
  | .int => s.writeVR i v
  | .float => s.writeVF i v

/-! ### Source operands (30_encoding.md R115, R116) -/

/-- The value of a source-2 operand. A float immediate is the 32 bits of A2, which the decoder has also put in FA
(10_state.md R45; DEDUCED, safe, log entry 10). -/
def State.src2 (s : State) (b : Bank) : Src2 → Except Cause Word
  | .reg i => do
    let k ← scalarIndex b i.toNat
    .ok (s.readScalar b k)
  | .imm v => .ok v

/-- The value of a single source operand (42_scalar.md R228, 45_vector.md R328). -/
def State.src1 (s : State) (b : Bank) : Src1 → Except Cause Word
  | .reg i => do
    let k ← scalarIndex b i.toNat
    .ok (s.readScalar b k)
  | .imm v => .ok v

/-! ### Addresses and targets -/

/-- addr_ok(a, len), in exact integers (20_memory.md R81). -/
def addrOk (a : Int) (len : Nat) : Bool := decide (0 ≤ a) && decide (a + len ≤ 65536)

/-- The effective address of a `len`-cell access: from an integer register or from A2, whatever F is, read as an i32 and
checked (43_memory_ops.md R260, 45_vector.md R326). -/
def State.effAddr (s : State) (len : Nat) (a : Src1) : Except Cause Nat := do
  let v ← s.src1 .int a
  if addrOk v.toInt len then .ok v.toInt.toNat else .error .memAddress

/-- check_target: the target is an absolute word index below 8192 (40_control.md R150). -/
def checkTarget (t : Word) : Except Cause Word := if t.toNat < 8192 then .ok t else .error .branchTarget

/-- A branch: the target is checked whether or not it is taken (40_control.md R150, D8). -/
def State.branch (s : State) (t : Word) (taken : Bool) : Except Cause State := do
  let t ← checkTarget t
  .ok (if taken then s.setPc t else s)

/-! ### Arithmetic of a bank (42_scalar.md R220, R221) -/

/-- The exact quotient truncated toward zero, its low 32 bits: -2^31 / -1 wraps to -2^31 (R220, D9). -/
def intQuotient (a b : Word) : Word := BitVec.ofInt 32 (a.toInt.tdiv b.toInt)

/-- Addition: the low 32 bits, or fadd32. -/
def addWord : Bank → Word → Word → Word
  | .int, a, b => a + b
  | .float, a, b => fadd32 a b

/-- Subtraction: the low 32 bits, or fsub32. -/
def subWord : Bank → Word → Word → Word
  | .int, a, b => a - b
  | .float, a, b => fsub32 a b

/-- Multiplication: the low 32 bits, or fmul32. -/
def mulWord : Bank → Word → Word → Word
  | .int, a, b => a * b
  | .float, a, b => fmul32 a b

/-- The quotient of a divisor that has passed its check, or fdiv32. -/
def quotWord : Bank → Word → Word → Word
  | .int, a, b => intQuotient a b
  | .float, a, b => fdiv32 a b

/-- Division: an integer divisor 0 is DIV_ZERO (42_scalar.md R226). -/
def divWord (b : Bank) (x y : Word) : Except Cause Word :=
  if b = .int ∧ y = 0 then .error .divZero else .ok (quotWord b x y)

/-- MOVC into a bank: int to float into the float bank, float to int into the integer bank (42_scalar.md R229). -/
def convertTo : Bank → Word → Word
  | .float, x => i2f x
  | .int, x => f2i x

/-- The four forms of ADD, SUB, MUL and DIV (42_scalar.md R222): register fields are checked first, both operands are read
before the result is written (00_scope.md R11). -/
def State.arith (s : State) (b : Bank) (d s1 : Byte) (s2 : Src2) (op : Word → Word → Except Cause Word) :
    Except Cause State := do
  let k ← scalarIndex b d.toNat
  let i ← scalarIndex b s1.toNat
  let y ← s.src2 b s2
  let v ← op (s.readScalar b i) y
  .ok (s.writeScalar b k v)

/-- lanewise(op) (45_vector.md R321): indices are checked, then all four lanes are computed from the old operands and
written together. -/
def State.lanewise (s : State) (b : Bank) (d s1 : Byte) (s2 : Word) (op : Lanes → Lanes → Except Cause Lanes) :
    Except Cause State := do
  let k ← vectorIndex d.toNat
  let i ← vectorIndex s1.toNat
  let j ← vectorIndex s2.toNat
  let v ← op (s.readVector b i) (s.readVector b j)
  .ok (s.writeVector b k v)

end Sys2Proof.Machine
end

