-- ==== Sys2Proof/Machine/Control.lean ====
section
/-! DEFINITION. Control flow (40_control.md R150 to R157). PC already holds the fetched word's index plus 1. -/

namespace Sys2Proof.Machine

/-- HALT (R151). -/
def execHalt (s : State) : Result := .next s.halt

/-- JMP t (R152). -/
def execJmp (t : Word) (s : State) : Result := conclude s (s.branch t true)

/-- BZ t: taken iff Z = 1 (R153). -/
def execBz (t : Word) (s : State) : Result := conclude s (s.branch t s.flagZ)

/-- BNZ t: taken iff Z = 0 (R154). -/
def execBnz (t : Word) (s : State) : Result := conclude s (s.branch t (!s.flagZ))

/-- BLT t: taken iff N = 1 (R155). -/
def execBlt (t : Word) (s : State) : Result := conclude s (s.branch t s.flagN)

/-- BGE t: taken iff P = 1 or Z = 1 (R156). -/
def execBge (t : Word) (s : State) : Result := conclude s (s.branch t (s.flagP || s.flagZ))

end Sys2Proof.Machine
end

