-- ==== Sys2Proof/Machine/FrontierUnit.lean ====
section
/-! DEFINITION. The frontier instructions (44_frontier.md R287 to R291). FPUSH acts on next; FPOP, FEMPTY and FFILL act on
current (R285). -/

namespace Sys2Proof.Machine

/-- FPUSH r (R287). -/
def execFpush (r : Byte) (s : State) : Result := conclude s do
  let k ← scalarIndex .int r.toNat
  let q ← s.nextQ.push (s.readR k)
  .ok (s.setNextQ q)

/-- FPOP r (R288). -/
def execFpop (r : Byte) (s : State) : Result := conclude s do
  let k ← scalarIndex .int r.toNat
  let p ← s.currentQ.pop
  .ok ((s.setCurrentQ p.2).writeR k p.1)

/-- FEMPTY (R289). -/
def execFempty (s : State) : Result := conclude s do
  let e ← s.currentQ.testEmpty
  .ok (s.setZ e)

/-- FSWAP (R290). -/
def execFswap (s : State) : Result := .next s.swapRoles

/-- FFILL (R291). -/
def execFfill (s : State) : Result := conclude s do
  let q ← s.currentQ.fill s.graph.n.toNat
  .ok (s.setCurrentQ q)

end Sys2Proof.Machine
end

