-- ==== Sys2Proof/Machine/Query.lean ====
section
/-! DEFINITION. The CSR query engine (41_graph.md R180 to R186): read-only functions over the CSR store. Indices are exact
integers; an index outside its array is CSR_BOUNDS (R182). -/

namespace Sys2Proof.Machine

/-- Read an array at an exact integer index (R182; log entry 15). -/
def csrEntry (array : List Word) (i : Int) : Except Cause Word :=
  if i < 0 then .error .csrBounds
  else
    match array[i.toNat]? with
    | some v => .ok v
    | none => .error .csrBounds

/-- row(i) (R182). -/
def Csr.row (g : Csr) (i : Int) : Except Cause Word := csrEntry g.rowIndex i

/-- col(j) (R182). -/
def Csr.col (g : Csr) (j : Int) : Except Cause Word := csrEntry g.colIndex j

/-- val(j) (R182). -/
def Csr.val (g : Csr) (j : Int) : Except Cause Word := csrEntry g.values j

/-- need_node(u): u read as an i32 lies in 0 .. n-1 (R181). -/
def Csr.needNode (g : Csr) (u : Word) : Except Cause Nat :=
  if 0 ≤ u.toInt ∧ u.toInt < g.n.toNat then .ok u.toInt.toNat else .error .nodeRange

/-- degree(u) = row(u+1) - row(u), stored as an i32 (R183). -/
def Csr.degree (g : Csr) (u : Nat) : Except Cause Word := do
  let lo ← g.row u
  let hi ← g.row (u + 1 : Nat)
  .ok (BitVec.ofInt 32 (hi.toInt - lo.toInt))

/-- neighbors(u): the columns of row u in slot order (R186); a row with a slot outside col_index is CSR_BOUNDS (R182, R184). -/
def Csr.neighbors (g : Csr) (u : Nat) : Except Cause (List Word) := do
  let lo ← g.row u
  let hi ← g.row (u + 1 : Nat)
  if lo.toInt < hi.toInt then
    if 0 ≤ lo.toInt ∧ hi.toInt ≤ g.colIndex.length then
      .ok ((g.colIndex.drop lo.toInt.toNat).take (hi.toInt - lo.toInt).toNat)
    else .error .csrBounds
  else .ok []

/-- has_edge(u, v): membership of v in row u (R184; log entry 22). -/
def Csr.hasEdge (g : Csr) (u : Nat) (v : Word) : Except Cause Bool := do
  let row ← g.neighbors u
  .ok (row.contains v)

/-- weight(u, v): the value at the least slot of row u whose column is v, and 0 where there is none (R185). No opcode calls
it. -/
def Csr.weight (g : Csr) (u : Nat) (v : Word) : Except Cause Word := do
  let lo ← g.row u
  let row ← g.neighbors u
  match row.findIdx? (fun c => c == v) with
  | some k => g.val (lo.toInt + k)
  | none => .ok 0

/-- The loop of ENEXT (R190): from row u at offset e, skip exhausted rows until a row has an edge left or u reaches n.
`fuel` is the number of rows not yet passed. -/
def Csr.seekEdge (g : Csr) : (fuel : Nat) → (u e : Nat) → Except Cause (Nat × Nat)
  | 0, u, e => .ok (u, e)
  | fuel + 1, u, e =>
    if u < g.n.toNat then do
      let lo ← g.row u
      let hi ← g.row (u + 1 : Nat)
      if lo.toInt + e ≥ hi.toInt then g.seekEdge fuel (u + 1) 0 else .ok (u, e)
    else .ok (u, e)

end Sys2Proof.Machine
end

