-- ==== Sys2Proof/Machine/Graph.lean ====
section
/-! DEFINITION. Graph iteration (41_graph.md R187 to R192). Rnode, Rnbr and Rval are R[0], R[1] and R[2]. -/

namespace Sys2Proof.Machine

/-- NITER i (R187). -/
def execNiter (i : Byte) (s : State) : Result := conclude s do
  let k ← iterIndex i
  .ok (s.writeNiter k 0)

/-- NNEXT i (R188). -/
def execNnext (i : Byte) (s : State) : Result := conclude s do
  let k ← iterIndex i
  let u ← s.graph.needNode (s.readR rnode)
  let lo ← s.graph.row u
  let hi ← s.graph.row (u + 1 : Nat)
  let slot : Int := lo.toInt + (s.readNiter k).toNat
  if slot < hi.toInt then
    let nb ← s.graph.col slot
    let w ← s.graph.val slot
    .ok ((((s.writeR rnbr nb).writeR rval w).writeNiter k (s.readNiter k + 1)).setZ false)
  else .ok (s.setZ true)

/-- EITER (R189). -/
def execEiter (s : State) : Result := .next ((s.writeEiter 0).writeR rnode 0)

/-- ENEXT (R190). -/
def execEnext (s : State) : Result := conclude s do
  let u := (s.readR rnode).toInt
  if u < 0 then .error .nodeRange
  else
    let p ← s.graph.seekEdge (s.graph.n.toNat - u.toNat) u.toNat s.eiter.toNat
    if p.1 ≥ s.graph.n.toNat then
      .ok (((s.writeR rnode (BitVec.ofNat 32 p.1)).writeEiter (BitVec.ofNat 32 p.2)).setZ true)
    else
      let lo ← s.graph.row p.1
      let nb ← s.graph.col (lo.toInt + p.2)
      let w ← s.graph.val (lo.toInt + p.2)
      .ok (((((s.writeR rnode (BitVec.ofNat 32 p.1)).writeR rnbr nb).writeR rval w).writeEiter
        (BitVec.ofNat 32 (p.2 + 1))).setZ false)

/-- HASE: Z is cleared iff the edge Rnode→Rnbr exists (R191). -/
def execHase (s : State) : Result := conclude s do
  let u ← s.graph.needNode (s.readR rnode)
  let hit ← s.graph.hasEdge u (s.readR rnbr)
  .ok (s.setZ (!hit))

/-- DEG r (R192). -/
def execDeg (r : Byte) (s : State) : Result := conclude s do
  let k ← scalarIndex .int r.toNat
  let u ← s.graph.needNode (s.readR k)
  let deg ← s.graph.degree u
  .ok (s.writeR rval deg)

end Sys2Proof.Machine
end

