-- ==== Sys2Proof/Machine/LoadStore.lean ====
section
/-! DEFINITION. Scalar loads and stores (43_memory_ops.md R260 to R262): the 32-bit pattern moves unchanged (20_memory.md
R82). -/

namespace Sys2Proof.Machine

/-- LD (R261). -/
def execLd (b : Bank) (d : Byte) (a : Src1) (s : State) : Result := conclude s do
  let k ← scalarIndex b d.toNat
  let addr ← s.effAddr 1 a
  .ok (s.writeScalar b k (s.readMem addr))

/-- ST (R262). -/
def execSt (b : Bank) (d : Byte) (a : Src1) (s : State) : Result := conclude s do
  let k ← scalarIndex b d.toNat
  let addr ← s.effAddr 1 a
  .ok (s.writeMem addr (s.readScalar b k))

end Sys2Proof.Machine
end

