-- ==== Sys2Proof/Machine/Multicore.lean ====
section
/-! DEFINITION. The multicore opcodes: no-ops of this block (46_multicore.md R360 to R364). -/

namespace Sys2Proof.Machine

/-- The shared no-op: nothing is read and nothing is written (R364). -/
def skip (s : State) : Result := .next s

/-- PARALLEL (R360). -/
def execParallel (s : State) : Result := skip s

/-- BARRIER (R361). -/
def execBarrier (s : State) : Result := skip s

/-- LOCK (R362). -/
def execLock (s : State) : Result := skip s

/-- UNLOCK (R363). -/
def execUnlock (s : State) : Result := skip s

end Sys2Proof.Machine
end

