-- ==== Sys2Proof/Machine/Scalar.lean ====
section
/-! DEFINITION. Scalar arithmetic, compare, move and convert (42_scalar.md R220 to R229). Only CMP writes FLAGS. -/

namespace Sys2Proof.Machine

/-- ADD (R223). -/
def execAdd (b : Bank) (d s1 : Byte) (s2 : Src2) (s : State) : Result :=
  conclude s (s.arith b d s1 s2 (fun x y => .ok (addWord b x y)))

/-- SUB (R224). -/
def execSub (b : Bank) (d s1 : Byte) (s2 : Src2) (s : State) : Result :=
  conclude s (s.arith b d s1 s2 (fun x y => .ok (subWord b x y)))

/-- MUL (R225). -/
def execMul (b : Bank) (d s1 : Byte) (s2 : Src2) (s : State) : Result :=
  conclude s (s.arith b d s1 s2 (fun x y => .ok (mulWord b x y)))

/-- DIV (R226). -/
def execDiv (b : Bank) (d s1 : Byte) (s2 : Src2) (s : State) : Result :=
  conclude s (s.arith b d s1 s2 (divWord b))

/-- CMP (R227). -/
def execCmp (b : Bank) (s1 : Byte) (s2 : Src2) (s : State) : Result := conclude s do
  let i ← scalarIndex b s1.toNat
  let y ← s.src2 b s2
  .ok (s.setFlags (cmpFlags b (s.readScalar b i) y))

/-- MOV: the pattern is copied with no conversion (R228). -/
def execMov (b : Bank) (d : Byte) (a : Src1) (s : State) : Result := conclude s do
  let k ← scalarIndex b d.toNat
  let v ← s.src1 b a
  .ok (s.writeScalar b k v)

/-- MOVC: F = 1 converts an integer register to float, F = 0 a float register to integer (R229). -/
def execMovc (b : Bank) (d a : Byte) (s : State) : Result := conclude s do
  let k ← scalarIndex b d.toNat
  let i ← scalarIndex b.other a.toNat
  .ok (s.writeScalar b k (convertTo b (s.readScalar b.other i)))

end Sys2Proof.Machine
end

