-- ==== Sys2Proof/Machine/VectorUnit.lean ====
section
/-! DEFINITION. The vector lane unit (45_vector.md R320 to R329). No vector instruction writes FLAGS. -/

namespace Sys2Proof.Machine

/-- VADD (R322). -/
def execVadd (b : Bank) (d s1 : Byte) (s2 : Word) (s : State) : Result :=
  conclude s (s.lanewise b d s1 s2 (fun x y => .ok (x.zipWith (addWord b) y)))

/-- VSUB (R323). -/
def execVsub (b : Bank) (d s1 : Byte) (s2 : Word) (s : State) : Result :=
  conclude s (s.lanewise b d s1 s2 (fun x y => .ok (x.zipWith (subWord b) y)))

/-- VMUL (R324). -/
def execVmul (b : Bank) (d s1 : Byte) (s2 : Word) (s : State) : Result :=
  conclude s (s.lanewise b d s1 s2 (fun x y => .ok (x.zipWith (mulWord b) y)))

/-- VDIV: an integer divisor of 0 in any lane is DIV_ZERO, and then no lane is written (R325). -/
def execVdiv (b : Bank) (d s1 : Byte) (s2 : Word) (s : State) : Result :=
  conclude s (s.lanewise b d s1 s2 (fun x y =>
    if b = .int ∧ y.anyZero = true then .error .divZero else .ok (x.zipWith (quotWord b) y)))

/-- VLD (R326). -/
def execVld (b : Bank) (d : Byte) (a : Src1) (s : State) : Result := conclude s do
  let k ← vectorIndex d.toNat
  let addr ← s.effAddr 4 a
  .ok (s.writeVector b k (s.readMem4 addr))

/-- VST (R327). -/
def execVst (b : Bank) (d : Byte) (a : Src1) (s : State) : Result := conclude s do
  let k ← vectorIndex d.toNat
  let addr ← s.effAddr 4 a
  .ok (s.writeMem4 addr (s.readVector b k))

/-- VSET (R328). -/
def execVset (b : Bank) (d : Byte) (a : Src1) (s : State) : Result := conclude s do
  let k ← vectorIndex d.toNat
  let v ← s.src1 b a
  .ok (s.writeVector b k (Lanes.broadcast v))

/-- VSUM: the lanes are added to the old destination, left to right (R329). -/
def execVsum (b : Bank) (d v : Byte) (s : State) : Result := conclude s do
  let k ← scalarIndex b d.toNat
  let i ← vectorIndex v.toNat
  .ok (s.writeScalar b k (Lanes.accumulate (addWord b) (s.readScalar b k) (s.readVector b i)))

end Sys2Proof.Machine
end

