-- ==== Sys2Proof/Machine/Dispatch.lean ====
section
/-! DEFINITION. The executor's dispatch: one arm per opcode (30_encoding.md R136), each one call of the opcode's meaning. The
state is the one the fetch and the decoder have left (30_encoding.md R130; log entry 12). -/

namespace Sys2Proof.Machine

/-- Execute an instruction (30_encoding.md R130, R136). -/
def exec (i : Instr) (s : State) : Host.Outcome State Fault Refusal :=
  match i with
  | .halt => Sys2Proof.Machine.execHalt s
  | .jmp t => Sys2Proof.Machine.execJmp t s
  | .bz t => Sys2Proof.Machine.execBz t s
  | .bnz t => Sys2Proof.Machine.execBnz t s
  | .blt t => Sys2Proof.Machine.execBlt t s
  | .bge t => Sys2Proof.Machine.execBge t s
  | .niter k => Sys2Proof.Machine.execNiter k s
  | .nnext k => Sys2Proof.Machine.execNnext k s
  | .eiter => Sys2Proof.Machine.execEiter s
  | .enext => Sys2Proof.Machine.execEnext s
  | .hase => Sys2Proof.Machine.execHase s
  | .deg r => Sys2Proof.Machine.execDeg r s
  | .add b d s1 s2 => Sys2Proof.Machine.execAdd b d s1 s2 s
  | .sub b d s1 s2 => Sys2Proof.Machine.execSub b d s1 s2 s
  | .mul b d s1 s2 => Sys2Proof.Machine.execMul b d s1 s2 s
  | .div b d s1 s2 => Sys2Proof.Machine.execDiv b d s1 s2 s
  | .cmp b s1 s2 => Sys2Proof.Machine.execCmp b s1 s2 s
  | .mov b d a => Sys2Proof.Machine.execMov b d a s
  | .movc b d a => Sys2Proof.Machine.execMovc b d a s
  | .ld b d a => Sys2Proof.Machine.execLd b d a s
  | .st b d a => Sys2Proof.Machine.execSt b d a s
  | .fpush r => Sys2Proof.Machine.execFpush r s
  | .fpop r => Sys2Proof.Machine.execFpop r s
  | .fempty => Sys2Proof.Machine.execFempty s
  | .fswap => Sys2Proof.Machine.execFswap s
  | .ffill => Sys2Proof.Machine.execFfill s
  | .vadd b d s1 s2 => Sys2Proof.Machine.execVadd b d s1 s2 s
  | .vsub b d s1 s2 => Sys2Proof.Machine.execVsub b d s1 s2 s
  | .vmul b d s1 s2 => Sys2Proof.Machine.execVmul b d s1 s2 s
  | .vdiv b d s1 s2 => Sys2Proof.Machine.execVdiv b d s1 s2 s
  | .vld b d a => Sys2Proof.Machine.execVld b d a s
  | .vst b d a => Sys2Proof.Machine.execVst b d a s
  | .vset b d a => Sys2Proof.Machine.execVset b d a s
  | .vsum b d v => Sys2Proof.Machine.execVsum b d v s
  | .parallel => Sys2Proof.Machine.execParallel s
  | .barrier => Sys2Proof.Machine.execBarrier s
  | .lock => Sys2Proof.Machine.execLock s
  | .unlock => Sys2Proof.Machine.execUnlock s

end Sys2Proof.Machine
end

