-- ==== Sys2Proof/Decode.lean ====
section
/-! DEFINITION. The decoder (30_encoding.md R110 to R123) and, after it, the encoder. Decoding is total: a word whose
opcode byte is outside the map of R113 is rejected by name, every other word is an instruction. -/

namespace Sys2Proof

/-! ### Fields of a word -/

/-- The five fields of an instruction word (R110). -/
structure Fields where
  op : Byte
  flags : Byte
  a0 : Byte
  a1 : Byte
  a2 : Word
deriving DecidableEq, Repr

/-- The fields of a word: op = bits 63..56, flags = 55..48, A0 = 47..40, A1 = 39..32, A2 = 31..0 (R110, R119). -/
def fieldsOf (w : ProgWord) : Fields where
  op := w.extractLsb' 56 8
  flags := w.extractLsb' 48 8
  a0 := w.extractLsb' 40 8
  a1 := w.extractLsb' 32 8
  a2 := w.extractLsb' 0 32

/-- The word of five fields: op ++ flags ++ A0 ++ A1 ++ A2 (R110, R122). -/
def packFields (f : Fields) : ProgWord := f.op ++ f.flags ++ f.a0 ++ f.a1 ++ f.a2

/-- The I flag: flag-byte bit 0, word bit 48 (R111). -/
def Fields.immediate (f : Fields) : Bool := f.flags.getLsbD 0

/-- The F flag: flag-byte bit 1, word bit 49 (R111). Flag-byte bits 2 to 7 are read by nothing (R112). -/
def Fields.floating (f : Fields) : Bool := f.flags.getLsbD 1

/-- The bank F selects (10_state.md R37). -/
def Fields.bank (f : Fields) : Bank := if f.floating then .float else .int

/-- A2 as a source-2 operand (R115, R116). -/
def Fields.src2 (f : Fields) : Src2 := if f.immediate then .imm f.a2 else .reg f.a2

/-- A1 or A2 as a single source operand (R115, R116). -/
def Fields.src1 (f : Fields) : Src1 := if f.immediate then .imm f.a2 else .reg f.a1

/-! ### The opcode map -/

/-- The opcode byte of each opcode (R113, decision D1; log entry 9). -/
def Opcode.byte : Opcode → Byte
  | .halt => 0x00 | .jmp => 0x01 | .bz => 0x02 | .bnz => 0x03 | .blt => 0x04 | .bge => 0x05
  | .niter => 0x06 | .nnext => 0x07 | .eiter => 0x08 | .enext => 0x09 | .hase => 0x0A | .deg => 0x0B
  | .add => 0x0C | .sub => 0x0D | .mul => 0x0E | .div => 0x0F
  | .cmp => 0x10 | .mov => 0x11 | .movc => 0x12
  | .ld => 0x13 | .st => 0x14
  | .fpush => 0x15 | .fpop => 0x16 | .fempty => 0x17 | .fswap => 0x18 | .ffill => 0x19
  | .vadd => 0x1A | .vsub => 0x1B | .vmul => 0x1C | .vdiv => 0x1D
  | .vld => 0x1E | .vst => 0x1F | .vset => 0x20 | .vsum => 0x21
  | .parallel => 0x22 | .barrier => 0x23 | .lock => 0x24 | .unlock => 0x25

/-- Every opcode, in the order of R113. -/
def Opcode.all : List Opcode :=
  [.halt, .jmp, .bz, .bnz, .blt, .bge, .niter, .nnext, .eiter, .enext, .hase, .deg, .add, .sub, .mul, .div,
   .cmp, .mov, .movc, .ld, .st, .fpush, .fpop, .fempty, .fswap, .ffill,
   .vadd, .vsub, .vmul, .vdiv, .vld, .vst, .vset, .vsum, .parallel, .barrier, .lock, .unlock]

/-- The opcode an opcode byte names, if it is in the map (R113, R114). -/
def Opcode.ofByte? (op : Byte) : Option Opcode := Opcode.all.find? (fun o => o.byte == op)

/-! ### Decoding -/

/-- Why a word does not decode. The only reason is an opcode byte outside the map (R114, R123). -/
inductive DecodeError where
  /-- Raised by `decode` for opcode bytes 0x26 to 0xFF; the tick then ends with ERROR(DECODE). Safe: the spec's own error. -/
  | unknownOpcode (op : Byte)
deriving DecidableEq, Repr

/-- The instruction of an opcode and the fields of its word: the fields each row of R115 uses. -/
def assemble (o : Opcode) (f : Fields) : Instr :=
  match o with
  | .halt => .halt
  | .jmp => .jmp f.a2
  | .bz => .bz f.a2
  | .bnz => .bnz f.a2
  | .blt => .blt f.a2
  | .bge => .bge f.a2
  | .niter => .niter f.a0
  | .nnext => .nnext f.a0
  | .eiter => .eiter
  | .enext => .enext
  | .hase => .hase
  | .deg => .deg f.a0
  | .add => .add f.bank f.a0 f.a1 f.src2
  | .sub => .sub f.bank f.a0 f.a1 f.src2
  | .mul => .mul f.bank f.a0 f.a1 f.src2
  | .div => .div f.bank f.a0 f.a1 f.src2
  | .cmp => .cmp f.bank f.a1 f.src2
  | .mov => .mov f.bank f.a0 f.src1
  | .movc => .movc f.bank f.a0 f.a1
  | .ld => .ld f.bank f.a0 f.src1
  | .st => .st f.bank f.a0 f.src1
  | .fpush => .fpush f.a0
  | .fpop => .fpop f.a0
  | .fempty => .fempty
  | .fswap => .fswap
  | .ffill => .ffill
  | .vadd => .vadd f.bank f.a0 f.a1 f.a2
  | .vsub => .vsub f.bank f.a0 f.a1 f.a2
  | .vmul => .vmul f.bank f.a0 f.a1 f.a2
  | .vdiv => .vdiv f.bank f.a0 f.a1 f.a2
  | .vld => .vld f.bank f.a0 f.src1
  | .vst => .vst f.bank f.a0 f.src1
  | .vset => .vset f.bank f.a0 f.src1
  | .vsum => .vsum f.bank f.a0 f.a1
  | .parallel => .parallel
  | .barrier => .barrier
  | .lock => .lock
  | .unlock => .unlock

/-- Decode a word (R119): step 1 checks the opcode byte, the other steps extract the fields. What a clean decode writes
into the latches is `Machine.State.latchDecoded`. -/
def decode (w : ProgWord) : Except DecodeError Instr :=
  match Opcode.ofByte? (fieldsOf w).op with
  | some o => .ok (assemble o (fieldsOf w))
  | none => .error (.unknownOpcode (fieldsOf w).op)

/-! ### Encoding -/

/-- The opcode of an instruction (R113). -/
def Instr.opcode : Instr → Opcode
  | .halt => .halt | .jmp _ => .jmp | .bz _ => .bz | .bnz _ => .bnz | .blt _ => .blt | .bge _ => .bge
  | .niter _ => .niter | .nnext _ => .nnext | .eiter => .eiter | .enext => .enext | .hase => .hase | .deg _ => .deg
  | .add .. => .add | .sub .. => .sub | .mul .. => .mul | .div .. => .div
  | .cmp .. => .cmp | .mov .. => .mov | .movc .. => .movc | .ld .. => .ld | .st .. => .st
  | .fpush _ => .fpush | .fpop _ => .fpop | .fempty => .fempty | .fswap => .fswap | .ffill => .ffill
  | .vadd .. => .vadd | .vsub .. => .vsub | .vmul .. => .vmul | .vdiv .. => .vdiv
  | .vld .. => .vld | .vst .. => .vst | .vset .. => .vset | .vsum .. => .vsum
  | .parallel => .parallel | .barrier => .barrier | .lock => .lock | .unlock => .unlock

/-- The flag byte of an I and an F flag, its reserved bits clear (R111). -/
def flagByte (i : Bool) (b : Bank) : Byte :=
  match i, b with
  | false, .int => 0x00
  | true, .int => 0x01
  | false, .float => 0x02
  | true, .float => 0x03

/-- The I flag of a source-2 operand. -/
def Src2.immediate : Src2 → Bool
  | .reg _ => false
  | .imm _ => true

/-- The A2 field of a source-2 operand. -/
def Src2.a2 : Src2 → Word
  | .reg i => i
  | .imm v => v

/-- The I flag of a single source operand. -/
def Src1.immediate : Src1 → Bool
  | .reg _ => false
  | .imm _ => true

/-- The A1 field of a single source operand; 0 where the field is ignored. -/
def Src1.a1 : Src1 → Byte
  | .reg i => i
  | .imm _ => 0

/-- The A2 field of a single source operand; 0 where the field is ignored. -/
def Src1.a2 : Src1 → Word
  | .reg _ => 0
  | .imm v => v

/-- The flag byte, A0, A1 and A2 of an instruction (R115), with 0 in every field its row ignores and I = 1 on the
branches, as R140 and R152 write them (DESIGN CHOICE, safe, log entry 11). -/
def Instr.fields (i : Instr) : Fields :=
  let mk (flags a0 a1 : Byte) (a2 : Word) : Fields := ⟨i.opcode.byte, flags, a0, a1, a2⟩
  match i with
  | .halt | .eiter | .enext | .hase | .fempty | .fswap | .ffill | .parallel | .barrier | .lock | .unlock => mk 0 0 0 0
  | .jmp t | .bz t | .bnz t | .blt t | .bge t => mk (flagByte true .int) 0 0 t
  | .niter k | .nnext k => mk 0 k 0 0
  | .deg r | .fpush r | .fpop r => mk 0 r 0 0
  | .add b d s1 s2 | .sub b d s1 s2 | .mul b d s1 s2 | .div b d s1 s2 => mk (flagByte s2.immediate b) d s1 s2.a2
  | .cmp b s1 s2 => mk (flagByte s2.immediate b) 0 s1 s2.a2
  | .mov b d s | .ld b d s | .st b d s | .vld b d s | .vst b d s | .vset b d s => mk (flagByte s.immediate b) d s.a1 s.a2
  | .movc b d s => mk (flagByte false b) d s 0
  | .vadd b d s1 s2 | .vsub b d s1 s2 | .vmul b d s1 s2 | .vdiv b d s1 s2 => mk (flagByte false b) d s1 s2
  | .vsum b d v => mk (flagByte false b) d v 0

/-- The word of an instruction (R122). -/
def encode (i : Instr) : ProgWord := packFields i.fields

/-! ### The host's question -/

/-- The instruction the decoder reads from the low `nbits` bits of `w`; the bits above are 0. An instruction is one
64-bit word (R142), so the table's numbering of bits is the word's own (R8). -/
def decodeTableWord (nbits w : Nat) : Option Instr :=
  match decode (BitVec.ofNat 64 (w % 2 ^ nbits)) with
  | .ok i => some i
  | .error _ => none

end Sys2Proof
end

