-- ==== Sys2Proof/Machine/Pipeline.lean ====
section
/-! DEFINITION. The parts of one tick around the execute (30_encoding.md R119, R120, R130 to R135; 60_exceptions.md R382):
the fetch, the decoder's latches, the counter, the debug hook point. `Machine/Step.lean` joins them. -/

namespace Sys2Proof.Machine

/-- A fetch takes place: the block is RUNNING and PC is below PROGRAM_SIZE (R130, R131). -/
def State.fetches (s : State) : Bool := s.pstate == .running && decide (s.pc.toNat < 8192)

/-- Prog(PC) (00_scope.md R10). -/
def State.fetchWord (s : State) : ProgWord := Memory.read s.prog s.pc.toNat

/-- PC <- PC + 1 (10_state.md R39). -/
def State.advancePc (s : State) : State := { s with pc := s.pc + 1 }

/-- What a clean decode of a word writes: ISA, A0, A1, A2, and FA only when I = F = 1 (R119, R120; 10_state.md R43 to R45). -/
def State.latchDecoded (s : State) (w : ProgWord) : State :=
  let f := fieldsOf w
  { s with isa := f.op, a0 := f.a0, a1 := f.a1, a2 := f.a2, fa := if f.immediate && f.floating then f.a2 else s.fa }

/-- ERR_WORD <- word (R130). -/
def State.recordWord (s : State) (w : ProgWord) : State := { s with errWord := w }

/-- clock <- clock + 1, modulo 2^64 (R132; 10_state.md R46). -/
def State.countClock (s : State) : State := { s with clock := s.clock + 1 }

/-- The state at the debug hook point of a tick that began in `s` and whose execute has left `t`: counted, and before `stop`
(R130, R133). In the model a HALT or an error of the execute has already written PSTATE, ERR_CAUSE and EXIT_PC, so those
three are given as they stood when the tick began; `stop` writes nothing else (60_exceptions.md R373; log entry 18). -/
def State.atHook (t s : State) : State :=
  { t.countClock with pstate := s.pstate, errCause := s.errCause, exitPc := s.exitPc }

/-- The abort decision at the debug hook point (R133, 60_exceptions.md R382): only if the execute returned CONTINUE, an abort
ends the tick with ERROR(HOST_ABORT); the instruction keeps its effects and EXIT_PC is its index `fpc`. -/
def State.sampleAbort (s : State) (abort : State → Bool) (fpc : Word) : State :=
  if s.pstate = .running ∧ abort s = true then s.stop .errored .hostAbort fpc else s

/-- The fetch beyond the end: status HALT with no fetch, PC and clock unchanged (R131). -/
def State.haltOffEnd (s : State) : State := s.stop .halted .noError s.pc

/-- The tick of a word that does not decode: PC has advanced, ERR_WORD holds the word, cause DECODE, EXIT_PC its index;
latches and clock unchanged (R114, R120, R130, R132). -/
def State.decodeFault (s : State) (w : ProgWord) : State :=
  (s.advancePc.recordWord w).stop .errored .decode s.pc

/-- The state the execute of a word starts from (R130). -/
def State.beforeExecute (s : State) (w : ProgWord) : State := s.advancePc.latchDecoded w

/-- A program word stored where the next tick fetches. The fetch needs PSTATE RUNNING and a PC below 8192, so a state that
would not fetch is given them (log entry 13). -/
def State.placeWord (s : State) (w : ProgWord) : State :=
  let pc := if s.pc.toNat < 8192 then s.pc else 0
  { s with pstate := .running, pc := pc, prog := Memory.write s.prog pc.toNat w }

end Sys2Proof.Machine
end

