-- ==== Sys2Proof/Machine/Step.lean ====
section
/-! DEFINITION. One tick (30_encoding.md R130 to R135), and the two names the host runs the model with. -/

namespace Sys2Proof.Machine

/-- tick() of R130, with the host's abort decision as a parameter (60_exceptions.md R382). The order of events is R375's. -/
def tick (abort : State → Bool) (s : State) : Host.Outcome State Fault Refusal :=
  if s.pstate ≠ .running then .next s
  else if ¬ s.pc.toNat < 8192 then .next s.haltOffEnd
  else
    match decode s.fetchWord with
    | .error _ => .next (s.decodeFault s.fetchWord)
    | .ok i =>
      match exec i (s.beforeExecute s.fetchWord) with
      | .next t => .next (t.countClock.sampleAbort abort s.pc)
      | .fault r => .fault r
      | .refused r => .refused r

/-- One step of the block: one tick, the abort decision being the level of the input port host_abort (60_exceptions.md R380;
log entry 8). -/
def step (s : State) : Host.Outcome State Fault Refusal := tick (fun t => t.hostAbort) s

/-- `s` with the instruction of the low `nbits` bits of `w` (bits above them 0) in the program word the next step fetches. It
stands for the host's load (70_reset_and_hazards.md R403; log entry 13). -/
def State.withFetchWord (s : State) (nbits w : Nat) : State := s.placeWord (BitVec.ofNat 64 (w % 2 ^ nbits))

end Sys2Proof.Machine
end

