-- ==== Sys2Proof/Machine/HostPorts.lean ====
section
/-! DEFINITION. The ports of the block other than step (60_exceptions.md R380 to R384): reset, load with the load image it
takes, the debug view and the exit event. No instruction reaches them. -/

namespace Sys2Proof.Machine

/-! ### reset (70_reset_and_hazards.md R400, R401) -/

/-- reset(): every piece of state at its reset value, program memory and the CSR store unchanged. The input line host_abort
is at its default (log entry 8). -/
def State.resetPort (s : State) : State := { State.reset with prog := s.prog, graph := s.graph }

/-! ### load (20_memory.md R100 to R102, 70_reset_and_hazards.md R403) -/

/-- The contents of a load image (R100). -/
structure Image where
  code : List ProgWord
  rowIndex : List Word
  colIndex : List Word
  values : List Word
  mem : List Word
deriving DecidableEq, Repr

/-- n = row_index_len - 1, and 0 for an empty row_index (R102, D50). -/
def Image.nodeCount (img : Image) : Nat := img.rowIndex.length - 1

/-- An image the host may load: code_len, mem_len and the graph fit (R101, D39), and row_index_len fits its u32 field (R100).
The bound on val_len is DEDUCED: the values are stored beside the edges (log entry 7). -/
abbrev Image.accepted (img : Image) : Prop :=
  img.code.length ≤ 8192 ∧ img.mem.length ≤ 65536 ∧ img.rowIndex.length < 2 ^ 32 ∧
  img.nodeCount ≤ Config.maxNodes ∧ img.colIndex.length ≤ Config.maxEdges ∧ img.values.length ≤ Config.maxEdges

/-- The CSR store of an image (R100, R102). -/
def Image.graph (img : Image) : Csr :=
  { n := BitVec.ofNat 32 img.nodeCount, rowIndex := img.rowIndex, colIndex := img.colIndex, values := img.values }

/-- The memories and the graph replaced, every word and cell past the image 0; nothing else changes (R403, D38). -/
def State.loadAccepted (s : State) (img : Image) : State :=
  { s with prog := Memory.writeList [] 0 img.code, graph := img.graph, mem := Memory.writeList [] 0 img.mem }

/-- load(image): a rejected image changes nothing (R403; log entry 21). -/
def State.load (s : State) (img : Image) : State := if img.accepted then s.loadAccepted img else s

/-- The first four bytes of a list as a u32 or i32, least significant byte first (20_memory.md R88, D49). -/
def takeWord : List Byte → Option (Word × List Byte)
  | b0 :: b1 :: b2 :: b3 :: rest => some (b3 ++ b2 ++ b1 ++ b0, rest)
  | _ => none

/-- The first eight bytes of a list as a program word, least significant byte first (R88, D49). -/
def takeProgWord (bytes : List Byte) : Option (ProgWord × List Byte) := do
  let (lo, rest) ← takeWord bytes
  let (hi, rest) ← takeWord rest
  some (hi ++ lo, rest)

/-- `count` items from the front of a list of bytes; none on a short read (R101). -/
def takeMany {α : Type} (item : List Byte → Option (α × List Byte)) : Nat → List Byte → Option (List α × List Byte)
  | 0, bytes => some ([], bytes)
  | count + 1, bytes => do
    let (x, rest) ← item bytes
    let (xs, rest) ← takeMany item count rest
    some (x :: xs, rest)

/-- Read a binary program file (R100): five u32 counts, then the five arrays, packed. none is a malformed header, a count
over its limit, or a short read (R101). Bytes past the last array are ignored (DESIGN CHOICE, safe, log entry 17). -/
def Image.parse (bytes : List Byte) : Option Image := do
  let (codeLen, rest) ← takeWord bytes
  let (rowLen, rest) ← takeWord rest
  let (colLen, rest) ← takeWord rest
  let (valLen, rest) ← takeWord rest
  let (memLen, rest) ← takeWord rest
  if codeLen.toNat > 8192 ∨ memLen.toNat > 65536 then none
  else
    let (code, rest) ← takeMany takeProgWord codeLen.toNat rest
    let (rowIndex, rest) ← takeMany takeWord rowLen.toNat rest
    let (colIndex, rest) ← takeMany takeWord colLen.toNat rest
    let (values, rest) ← takeMany takeWord valLen.toNat rest
    let (mem, _) ← takeMany takeWord memLen.toNat rest
    some { code := code, rowIndex := rowIndex, colIndex := colIndex, values := values, mem := mem }

/-! ### debug_view and exit_event (R380, R383, R384) -/

/-- debug_view: what the debug hook sees in a tick that executed an instruction, all of the state after the counter's
increment, before the abort is sampled and before a HALT or an error is recorded, so PSTATE is still RUNNING; none in a
tick that executed nothing (30_encoding.md R130, R133, R383; log entry 18). -/
def State.debugView (s : State) : Option State :=
  if s.fetches then
    match decode s.fetchWord with
    | .error _ => none
    | .ok i =>
      match exec i (s.beforeExecute s.fetchWord) with
      | .next t => some (t.atHook s)
      | .fault _ => none
      | .refused _ => none
  else none

/-- What the exit event exposes (R384): the final status, the report registers, the latches, the counter and data memory. -/
structure ExitEvent where
  status : PState
  errCause : BitVec 8
  exitPc : BitVec 32
  errWord : BitVec 64
  isa : Byte
  a0 : Byte
  a1 : Byte
  a2 : Word
  fa : Word
  clock : BitVec 64
  mem : Memory 32
deriving DecidableEq, Repr

/-- exit_event: fired by the tick from `s` to `t` iff that tick stopped the block (R384). -/
def exitEvent (s t : State) : Option ExitEvent :=
  if s.pstate = .running ∧ t.pstate ≠ .running then
    some { status := t.pstate, errCause := t.errCause, exitPc := t.exitPc, errWord := t.errWord, isa := t.isa, a0 := t.a0,
           a1 := t.a1, a2 := t.a2, fa := t.fa, clock := t.clock, mem := t.mem }
  else none

/-- The CLI's exit code of a final status: 0 on HALT, 1 on ERROR (R384). -/
def ExitEvent.exitCode (e : ExitEvent) : Nat := if e.status = .halted then 0 else 1

end Sys2Proof.Machine
end

