-- ==== Sys2Proof/Safety.lean ====
section
/-! DEFINITION. The terms the claims are stated in: the invariant of the state, the launch premise of the graph, the
contents of a frontier, and what each instruction may write. -/

namespace Sys2Proof.Machine

/-! ### The invariant every step keeps -/

/-- A frontier a program can reach: kind QUEUE (44_frontier.md R286), 0 ≤ back - front ≤ 1024 (10_state.md R49), slots in
canonical form and below 1024. -/
def Frontier.Inv (q : Frontier) : Prop :=
  q.kind = .queue ∧ q.size ≤ 1024 ∧ Memory.wf q.slot ∧ Memory.below q.slot 1024

/-- PSTATE and the report registers agree (60_exceptions.md R371, R373): nothing is recorded while RUNNING, HALTED has cause
NONE, ERRORED a cause 1 to 12, and ERR_WORD is written by DECODE only. -/
def State.ReportInv (s : State) : Prop :=
  (s.pstate = .running → s.errCause = 0 ∧ s.exitPc = 0) ∧
  (s.pstate = .halted → s.errCause = 0) ∧
  (s.pstate = .errored → 1 ≤ s.errCause.toNat ∧ s.errCause.toNat ≤ 12) ∧
  (s.errWord ≠ 0 → s.errCause = Cause.decode.code)

/-- The invariant: PC in 0 .. 8192 (10_state.md R39), FLAGS bits 3 to 7 read 0 (R40), the memories in canonical form and
inside their address spaces (20_memory.md R80, R83), the frontiers and the report registers as above. -/
def State.Inv (s : State) : Prop :=
  s.pc.toNat ≤ 8192 ∧ s.flags &&& 0xF8#8 = 0 ∧
  Memory.wf s.mem ∧ Memory.below s.mem 65536 ∧ Memory.wf s.prog ∧ Memory.below s.prog 8192 ∧
  (∀ j : Fin 2, Frontier.Inv s.q[j.val]) ∧ s.ReportInv

/-! ### The launch premise (20_memory.md R98) -/

/-- A well-formed graph: (a) row_len = n+1, (b) row_index non-decreasing, (c) row_index[n] = col_len, (d) col_index sorted
within each row, (e) val_len = col_len, and row_index[0] = 0. Whether "sorted ascending" is strict the spec leaves open
(41_graph.md R185: GX "does not say strictly"): `sorted` takes ≤, so a row may hold a column twice (DESIGN CHOICE, safe,
log entry 23). -/
structure Csr.Premise (g : Csr) : Prop where
  rowLen : g.rowIndex.length = g.n.toNat + 1
  rising : g.rowIndex.Pairwise (fun a b => a.toInt ≤ b.toInt)
  first : ∀ v, g.rowIndex[0]? = some v → v.toInt = 0
  last : ∀ v, g.rowIndex[g.n.toNat]? = some v → v.toInt = g.colIndex.length
  sorted : ∀ u, u < g.n.toNat → ∀ row, g.neighbors u = .ok row → row.Pairwise (fun a b => a.toInt ≤ b.toInt)
  valLen : g.values.length = g.colIndex.length

/-! ### The contents of a frontier (44_frontier.md R280, R292) -/

/-- The queued values, oldest first: the slots at counters front .. back-1. -/
def Frontier.contents (q : Frontier) : List Word :=
  (List.range q.size).map (fun k => Memory.read q.slot (Frontier.slotIndex (q.front + BitVec.ofNat 64 k)))

/-! ### What an instruction may write (10_state.md R41; 70_reset_and_hazards.md R407; each instruction's rule) -/

/-- The separately written parts of the state. -/
inductive Part where
  | intReg (j : Fin 24)
  | floatReg (j : Fin 18)
  | intVec (j : Fin 16)
  | floatVec (j : Fin 16)
  | pc
  | flagZ
  | otherFlags
  | latches
  | clock
  | niter (k : Fin 4)
  | eiter
  | frontier (j : Fin 2)
  | cur
  | graph
  | program
  | cell (a : Nat)
  | stopReport
  | errWord
  | hostLine
deriving DecidableEq, Repr

/-- A part holds in `t` what it holds in `s`. A register is compared by its storage cell, Rzero's and Fzero's too. -/
def Part.Same (s t : State) : Part → Prop
  | .intReg j => t.r[j.val] = s.r[j.val]
  | .floatReg j => t.f[j.val] = s.f[j.val]
  | .intVec j => t.vr[j.val] = s.vr[j.val]
  | .floatVec j => t.vf[j.val] = s.vf[j.val]
  | .pc => t.pc = s.pc
  | .flagZ => t.flagZ = s.flagZ
  | .otherFlags => t.flags &&& 0xFE#8 = s.flags &&& 0xFE#8
  | .latches => t.isa = s.isa ∧ t.a0 = s.a0 ∧ t.a1 = s.a1 ∧ t.a2 = s.a2 ∧ t.fa = s.fa
  | .clock => t.clock = s.clock
  | .niter k => t.niter[k.val] = s.niter[k.val]
  | .eiter => t.eiter = s.eiter
  | .frontier j => t.q[j.val] = s.q[j.val]
  | .cur => t.cur = s.cur
  | .graph => t.graph = s.graph
  | .program => t.prog = s.prog
  | .cell a => t.readMem a = s.readMem a
  | .stopReport => t.pstate = s.pstate ∧ t.errCause = s.errCause ∧ t.exitPc = s.exitPc
  | .errWord => t.errWord = s.errWord
  | .hostLine => t.hostAbort = s.hostAbort

/-- The scalar destination a field names. -/
def scalarPart (b : Bank) (field : Byte) (p : Part) : Prop :=
  match b with
  | .int => ∃ j : Fin 24, j.val = field.toNat ∧ p = .intReg j
  | .float => ∃ j : Fin 18, j.val = field.toNat ∧ p = .floatReg j

/-- The vector destination a field names. -/
def vectorPart (b : Bank) (field : Byte) (p : Part) : Prop :=
  match b with
  | .int => ∃ j : Fin 16, j.val = field.toNat ∧ p = .intVec j
  | .float => ∃ j : Fin 16, j.val = field.toNat ∧ p = .floatVec j

/-- The cells of a store: the effective address the store computes, and `len` cells from it. -/
def storedPart (s : State) (len : Nat) (a : Src1) (p : Part) : Prop :=
  ∃ base k, s.effAddr len a = .ok base ∧ k < len ∧ p = .cell (base + k)

end Sys2Proof.Machine

namespace Sys2Proof
open Machine

/-- The parts an instruction's rule lets it write when it completes. What a stop writes (PSTATE, ERR_CAUSE, EXIT_PC) is
`Part.stopReport`, which HALT and an error write. -/
def Instr.mayWrite (i : Instr) (s : State) (p : Part) : Prop :=
  match i with
  | .halt => p = .stopReport
  | .jmp _ | .bz _ | .bnz _ | .blt _ | .bge _ => p = .pc
  | .niter i => ∃ k : Fin 4, k.val = i.toNat ∧ p = .niter k
  | .nnext i => p = .intReg rnbr ∨ p = .intReg rval ∨ p = .flagZ ∨ ∃ k : Fin 4, k.val = i.toNat ∧ p = .niter k
  | .eiter => p = .eiter ∨ p = .intReg rnode
  | .enext => p = .intReg rnode ∨ p = .intReg rnbr ∨ p = .intReg rval ∨ p = .eiter ∨ p = .flagZ
  | .hase | .fempty => p = .flagZ
  | .deg _ => p = .intReg rval
  | .add b d _ _ | .sub b d _ _ | .mul b d _ _ | .div b d _ _ => scalarPart b d p
  | .cmp _ _ _ => p = .flagZ ∨ p = .otherFlags
  | .mov b d _ | .movc b d _ | .ld b d _ | .vsum b d _ => scalarPart b d p
  | .st _ _ a => storedPart s 1 a p
  | .fpush _ => p = .frontier (otherRole s.cur)
  | .fpop r => p = .frontier s.cur ∨ scalarPart .int r p
  | .fswap => p = .cur ∨ p = .frontier s.cur
  | .ffill => p = .frontier s.cur
  | .vadd b d _ _ | .vsub b d _ _ | .vmul b d _ _ | .vdiv b d _ _ => vectorPart b d p
  | .vld b d _ | .vset b d _ => vectorPart b d p
  | .vst _ _ a => storedPart s 4 a p
  | .parallel | .barrier | .lock | .unlock => False

/-- Every word with this opcode byte decodes to the opcode's instruction, with the fields of the word (30_encoding.md R113,
R115). -/
def Opcode.EncodedAs (o : Opcode) (byte : Byte) : Prop :=
  ∀ w : ProgWord, w.extractLsb' 56 8 = byte → decode w = .ok (assemble o (fieldsOf w))

end Sys2Proof

namespace Sys2Proof.Machine

/-! ### Terms the statements share -/

/-- The state an error leaves, written out: PSTATE ERRORED, the cause's code, EXIT_PC one below PC; nothing else changes
(60_exceptions.md R373, R374). -/
def State.inError (s : State) (code : BitVec 8) : State :=
  { s with pstate := .errored, errCause := code, exitPc := s.pc - 1 }

/-- The rule of an arithmetic opcode in its four forms (42_scalar.md R222): `iop` on the integer bank, `fop` on the float
bank; the destination is the only thing written; a register field outside its bank is REG_INDEX (6). -/
def ArithRule (mk : Bank → Byte → Byte → Src2 → Instr) (iop fop : Word → Word → Word) : Prop :=
  (∀ (s : State) (d s1 : Byte) (s2 : Word) (hd : d.toNat < 24) (h1 : s1.toNat < 24) (h2 : s2.toNat < 24),
    exec (mk .int d s1 (.reg s2)) s =
      .next { s with r := s.r.set d.toNat (iop (s.readR ⟨s1.toNat, h1⟩) (s.readR ⟨s2.toNat, h2⟩)) hd }) ∧
  (∀ (s : State) (d s1 : Byte) (v : Word) (hd : d.toNat < 24) (h1 : s1.toNat < 24),
    exec (mk .int d s1 (.imm v)) s = .next { s with r := s.r.set d.toNat (iop (s.readR ⟨s1.toNat, h1⟩) v) hd }) ∧
  (∀ (s : State) (d s1 : Byte) (s2 : Word) (hd : d.toNat < 18) (h1 : s1.toNat < 18) (h2 : s2.toNat < 18),
    exec (mk .float d s1 (.reg s2)) s =
      .next { s with f := s.f.set d.toNat (fop (s.readF ⟨s1.toNat, h1⟩) (s.readF ⟨s2.toNat, h2⟩)) hd }) ∧
  (∀ (s : State) (d s1 : Byte) (v : Word) (hd : d.toNat < 18) (h1 : s1.toNat < 18),
    exec (mk .float d s1 (.imm v)) s = .next { s with f := s.f.set d.toNat (fop (s.readF ⟨s1.toNat, h1⟩) v) hd }) ∧
  (∀ (s : State) (b : Bank) (d s1 : Byte) (s2 : Src2),
    ¬ d.toNat < b.scalars ∨ ¬ s1.toNat < b.scalars ∨ (∃ i, s2 = .reg i ∧ ¬ i.toNat < b.scalars) →
    exec (mk b d s1 s2) s = .next (s.inError 6))

/-- The rule of a lane-wise opcode (45_vector.md R321): lane k of the destination from lane k of the sources. -/
def LaneRule (mk : Bank → Byte → Byte → Word → Instr) (iop fop : Word → Word → Word) : Prop :=
  (∀ (s : State) (d s1 : Byte) (s2 : Word) (hd : d.toNat < 16) (h1 : s1.toNat < 16) (h2 : s2.toNat < 16),
    let v : Lanes :=
      ⟨iop s.vr[s1.toNat].l0 s.vr[s2.toNat].l0, iop s.vr[s1.toNat].l1 s.vr[s2.toNat].l1,
       iop s.vr[s1.toNat].l2 s.vr[s2.toNat].l2, iop s.vr[s1.toNat].l3 s.vr[s2.toNat].l3⟩
    exec (mk .int d s1 s2) s = .next { s with vr := s.vr.set d.toNat v hd }) ∧
  (∀ (s : State) (d s1 : Byte) (s2 : Word) (hd : d.toNat < 16) (h1 : s1.toNat < 16) (h2 : s2.toNat < 16),
    let v : Lanes :=
      ⟨fop s.vf[s1.toNat].l0 s.vf[s2.toNat].l0, fop s.vf[s1.toNat].l1 s.vf[s2.toNat].l1,
       fop s.vf[s1.toNat].l2 s.vf[s2.toNat].l2, fop s.vf[s1.toNat].l3 s.vf[s2.toNat].l3⟩
    exec (mk .float d s1 s2) s = .next { s with vf := s.vf.set d.toNat v hd }) ∧
  (∀ (s : State) (b : Bank) (d s1 : Byte) (s2 : Word),
    ¬ d.toNat < 16 ∨ ¬ s1.toNat < 16 ∨ ¬ s2.toNat < 16 → exec (mk b d s1 s2) s = .next (s.inError 6))

/-- The address of a load or store as the spec reads it: the i32 in an integer register, or A2 as an i32 (43_memory_ops.md
R260); none where the register field names no register. -/
def State.addressOf (s : State) : Src1 → Option Int
  | .reg i => if h : i.toNat < 24 then some (s.readR ⟨i.toNat, h⟩).toInt else none
  | .imm v => some v.toInt

/-- `v` is a finite binary32 value nearest to `num / den` units of 2^-149, and where another value is as near, the one whose
significand is even (42_scalar.md R221: "rounded to nearest, ties to even"). -/
def NearestEven (v : Word) (num : Int) (den : Nat) : Prop :=
  f32IsFinite v = true ∧ ∀ x, f32IsFinite x = true →
    (f32Value v * den - num).natAbs ≤ (f32Value x * den - num).natAbs ∧
    ((f32Value v * den - num).natAbs = (f32Value x * den - num).natAbs → f32Value x ≠ f32Value v → v.getLsbD 0 = false)

/-- One operation on one queue (44_frontier.md R292). -/
inductive QueueOp where
  | push (x : Word)
  | pop
deriving DecidableEq, Repr

/-- A sequence of operations on a ring buffer: the popped values in order, and the queue after it. -/
def Frontier.runOps : List QueueOp → Frontier → Except Cause (List Word × Frontier)
  | [], q => .ok ([], q)
  | .push x :: ops, q => do
    let p ← q.push x
    Frontier.runOps ops p
  | .pop :: ops, q => do
    let p ← q.pop
    let rest ← Frontier.runOps ops p.2
    .ok (p.1 :: rest.1, rest.2)

/-- The same sequence on a list of at most 1024 values, first in first out: what the ring buffer has to do. -/
def listRunOps : List QueueOp → List Word → Except Cause (List Word × List Word)
  | [], l => .ok ([], l)
  | .push x :: ops, l => if l.length = 1024 then .error .frontierFull else listRunOps ops (l ++ [x])
  | .pop :: _, [] => .error .frontierEmpty
  | .pop :: ops, x :: l => do
    let rest ← listRunOps ops l
    .ok (x :: rest.1, rest.2)

/-- `count` executions of ENEXT in a row. -/
def enextTimes : Nat → State → Result
  | 0, s => .next s
  | count + 1, s =>
    match enextTimes count s with
    | .next t => exec .enext t
    | r => r

/-- The state with the storage cells of Rzero and Fzero cleared: what a program can tell of it (10_state.md R31, R56). -/
def State.maskZeroCells (s : State) : State := { s with r := s.r.set 20 0, f := s.f.set 17 0 }

end Sys2Proof.Machine
end

