-- ==== Sys2Proof/Certificates/Slice0/Obligations.lean ====
section
/-! DEFINITION. The statements for the provers. Each is a proposition over the machine; none is proved here. A next state is
written as a record, `{ s with … }`: the fields named are all that changes, so that the result and the frame are one
statement. A destination field is the storage cell: what a later read of Rzero or Fzero gives is
`ZeroRegistersReadZeroAndAreUnobservable`. -/

open Sys2Proof Sys2Proof.Machine

/-! ### Reset, load and the invariant -/

/-- 70_reset_and_hazards.md R402 (with R400): the construction state, and its first step. The slot contents and the input
line are the model's (log entries 3 and 8) and are not stated. -/
def Obligations.ConstructionStateHaltsAtOnce : Prop :=
  (∀ i : Fin 24, State.reset.r[i.val] = 0) ∧ (∀ i : Fin 18, State.reset.f[i.val] = 0) ∧
  (∀ i : Fin 16, State.reset.vr[i.val] = ⟨0, 0, 0, 0⟩ ∧ State.reset.vf[i.val] = ⟨0, 0, 0, 0⟩) ∧
  State.reset.pc = 0 ∧ State.reset.flags = 0 ∧ State.reset.clock = 0 ∧
  (∀ k : Fin 4, State.reset.niter[k.val] = 0) ∧ State.reset.eiter = 0 ∧
  (∀ a, State.reset.readMem a = 0) ∧
  (∀ j : Fin 2, State.reset.q[j.val].kind = .queue ∧ State.reset.q[j.val].front = 0 ∧ State.reset.q[j.val].back = 0) ∧
  State.reset.cur = 0 ∧ State.reset.isa = 0 ∧ State.reset.a0 = 0 ∧ State.reset.a1 = 0 ∧ State.reset.a2 = 0 ∧
  State.reset.fa = 0 ∧ State.reset.pstate = .running ∧ State.reset.errCause = 0 ∧ State.reset.exitPc = 0 ∧
  State.reset.errWord = 0 ∧
  (∀ a, Memory.read State.reset.prog a = 0) ∧ State.reset.graph = { n := 0, rowIndex := [], colIndex := [], values := [] } ∧
  step State.reset = .next { State.reset with pc := 1, clock := 1, pstate := .halted }

/-- The invariant holds at reset (10_state.md R39, R40, R49; 20_memory.md R80, R83). -/
def Obligations.ResetStateSatisfiesInvariant : Prop := State.reset.Inv

/-- The invariant is kept by every step, from every state that has it. -/
def Obligations.StepKeepsInvariant : Prop := ∀ s t : State, s.Inv → step s = .next t → t.Inv

/-- 70_reset_and_hazards.md R401 and R400, 10_state.md R55: reset is idempotent, depends on program memory and the CSR store
alone, keeps them, and gives every other piece of state its reset value, from any state, running or stopped. Clauses 1 and 2 equate whole states, so they rest on the model's choices for what the spec leaves
open: the slot lists, which the reset port clears (log entry 3), and the input line, which it sets low (log entry 8). -/
def Obligations.ResetPortIsIdempotent : Prop :=
  (∀ s : State, s.resetPort.resetPort = s.resetPort) ∧
  (∀ s t : State, s.prog = t.prog → s.graph = t.graph → s.resetPort = t.resetPort) ∧
  (∀ s : State, s.resetPort.prog = s.prog ∧ s.resetPort.graph = s.graph ∧ s.resetPort.flags = 0 ∧ s.resetPort.pc = 0 ∧
    s.resetPort.clock = 0 ∧ (∀ i : Fin 24, s.resetPort.r[i.val] = 0) ∧ (∀ i : Fin 18, s.resetPort.f[i.val] = 0) ∧
    (∀ i : Fin 16, s.resetPort.vr[i.val] = ⟨0, 0, 0, 0⟩ ∧ s.resetPort.vf[i.val] = ⟨0, 0, 0, 0⟩) ∧
    (∀ k : Fin 4, s.resetPort.niter[k.val] = 0) ∧ s.resetPort.eiter = 0 ∧ (∀ a, s.resetPort.readMem a = 0) ∧
    (∀ j : Fin 2, s.resetPort.q[j.val].kind = .queue ∧ s.resetPort.q[j.val].front = 0 ∧ s.resetPort.q[j.val].back = 0) ∧
    s.resetPort.cur = 0 ∧ s.resetPort.isa = 0 ∧ s.resetPort.a0 = 0 ∧ s.resetPort.a1 = 0 ∧ s.resetPort.a2 = 0 ∧
    s.resetPort.fa = 0 ∧ s.resetPort.pstate = .running ∧ s.resetPort.errCause = 0 ∧ s.resetPort.exitPc = 0 ∧
    s.resetPort.errWord = 0)

/-- 70_reset_and_hazards.md R403: what load writes, that it keeps the rest of the state, and that a rejected image changes
nothing. 20_memory.md R101: code_len above 8192, mem_len above 65536 and a graph above MAX_NODES or MAX_EDGES (free values) are
rejected; an image inside every limit is accepted (the limit on val_len is the model's: log entry 7). -/
def Obligations.LoadReplacesMemoriesAndGraphOnly : Prop :=
  ∀ (s : State) (img : Image),
    (img.accepted →
      (∀ a, Memory.read (s.load img).prog a = img.code.getD a 0) ∧ (∀ a, (s.load img).readMem a = img.mem.getD a 0) ∧
      (s.load img).graph = { n := BitVec.ofNat 32 (img.rowIndex.length - 1), rowIndex := img.rowIndex,
                             colIndex := img.colIndex, values := img.values } ∧
      s.load img = { s with prog := (s.load img).prog, mem := (s.load img).mem, graph := (s.load img).graph } ∧
      Memory.wf (s.load img).prog ∧ Memory.wf (s.load img).mem) ∧
    (¬ img.accepted → s.load img = s) ∧
    (8192 < img.code.length ∨ 65536 < img.mem.length ∨ Config.maxNodes < img.rowIndex.length - 1 ∨
      Config.maxEdges < img.colIndex.length → s.load img = s) ∧
    (img.code.length ≤ 8192 → img.mem.length ≤ 65536 → img.rowIndex.length < 2 ^ 32 →
      img.rowIndex.length - 1 ≤ Config.maxNodes → img.colIndex.length ≤ Config.maxEdges →
      img.values.length ≤ Config.maxEdges → img.accepted)

/-! ### Encoding -/

/-- Decoding the encoding of any instruction, at every value of every operand field, gives the instruction back
(30_encoding.md R122). -/
def Obligations.DecodeInvertsEncode : Prop := ∀ i : Instr, decode (encode i) = .ok i

/-- 30_encoding.md R122: for every opcode of the map and all field values, packing and decoding gives the same fields, and a
float immediate survives in FA bit for bit. -/
def Obligations.PackedFieldsDecodeBack : Prop :=
  ∀ (o : Opcode) (flags a0 a1 : Byte) (a2 : Word) (s : State),
    let f : Fields := ⟨o.byte, flags, a0, a1, a2⟩
    packFields f = (o.byte.setWidth 64 <<< 56) ||| (flags.setWidth 64 <<< 48) ||| (a0.setWidth 64 <<< 40) |||
      (a1.setWidth 64 <<< 32) ||| a2.setWidth 64 ∧
    fieldsOf (packFields f) = f ∧ decode (packFields f) = .ok (assemble o f) ∧
    (s.latchDecoded (packFields f)).isa = o.byte ∧ (s.latchDecoded (packFields f)).a0 = a0 ∧
    (s.latchDecoded (packFields f)).a1 = a1 ∧ (s.latchDecoded (packFields f)).a2 = a2 ∧
    (flags.getLsbD 0 = true → flags.getLsbD 1 = true → (s.latchDecoded (packFields f)).fa = a2)

/-- 30_encoding.md R114: a word is a decode error iff its opcode byte is 0x26 or above, and its tick ends with
ERROR(DECODE); every other word decodes, whatever its other 56 bits. -/
def Obligations.DecodeErrorIffOpcodeOutsideMap : Prop :=
  (∀ w : ProgWord, 0x26 ≤ (w.extractLsb' 56 8).toNat → decode w = .error (.unknownOpcode (w.extractLsb' 56 8))) ∧
  (∀ w : ProgWord, (w.extractLsb' 56 8).toNat < 0x26 → ∃ i, decode w = .ok i) ∧
  (∀ s : State, s.pstate = .running → s.pc.toNat < 8192 → 0x26 ≤ ((Memory.read s.prog s.pc.toNat).extractLsb' 56 8).toNat →
    ∃ t, step s = .next t ∧ t.pstate = .errored ∧ t.errCause = 1)

/-- Words written out in the spec decode to the instructions it writes beside them (the examples of 40_control.md R152,
41_graph.md R187, 42_scalar.md R223 and R227 and R229, 43_memory_ops.md R261, 44_frontier.md R287, 45_vector.md R322 and
R328, 46_multicore.md R360), and the first illegal opcode byte, 0x26, does not decode (30_encoding.md R114). -/
def Obligations.SpecExampleWordsDecode : Prop :=
  decode 0x0101000000000005#64 = .ok (.jmp 5) ∧ decode 0x0600020000000000#64 = .ok (.niter 2) ∧
  decode 0x0C00030300000004#64 = .ok (.add .int 3 3 (.reg 4)) ∧ decode 0x1001000400000006#64 = .ok (.cmp .int 4 (.imm 6)) ∧
  decode 0x1202000300000000#64 = .ok (.movc .float 0 3) ∧ decode 0x1301030000000007#64 = .ok (.ld .int 3 (.imm 7)) ∧
  decode 0x1500010000000000#64 = .ok (.fpush 1) ∧ decode 0x1A00030100000002#64 = .ok (.vadd .int 3 1 2) ∧
  decode 0x2001010000000003#64 = .ok (.vset .int 1 (.imm 3)) ∧ decode 0x2200000000000000#64 = .ok .parallel ∧
  decode 0x2600000000000000#64 = .error (.unknownOpcode 0x26)

/-- Words that differ in the reserved flag bits only (word bits 50 to 55) decode alike and latch alike (30_encoding.md R112). -/
def Obligations.ReservedFlagBitsAreIgnored : Prop :=
  ∀ w v : ProgWord, (w &&& 0xFF03FFFFFFFFFFFF#64) = (v &&& 0xFF03FFFFFFFFFFFF#64) →
    decode w = decode v ∧ ∀ s : State, s.latchDecoded w = s.latchDecoded v

/-! ### The tick -/

/-- 60_exceptions.md R375 (with the pipeline of 30_encoding.md R130): the five events of a tick in their order, whatever the
host's abort decision, which is a function of the state after the instruction. -/
def Obligations.TickFollowsThePipeline : Prop :=
  ∀ (abort : State → Bool) (s : State),
    (s.pstate ≠ .running → tick abort s = .next s) ∧
    (s.pstate = .running → ¬ s.pc.toNat < 8192 →
      tick abort s = .next { s with pstate := .halted, errCause := 0, exitPc := s.pc }) ∧
    (s.pstate = .running → s.pc.toNat < 8192 →
      let w := Memory.read s.prog s.pc.toNat
      let f := fieldsOf w
      (∀ e, decode w = .error e →
        tick abort s = .next { s with pc := s.pc + 1, errWord := w, pstate := .errored, errCause := 1, exitPc := s.pc }) ∧
      (∀ i t, decode w = .ok i →
        exec i { s with pc := s.pc + 1, isa := f.op, a0 := f.a0, a1 := f.a1, a2 := f.a2,
                        fa := if f.flags.getLsbD 0 && f.flags.getLsbD 1 then f.a2 else s.fa } = .next t →
        let u : State := { t with clock := t.clock + 1 }
        tick abort s = .next (if t.pstate = .running ∧ abort u = true
          then { u with pstate := .errored, errCause := 12, exitPc := s.pc } else u)))

/-- The step runs the decoded instruction: where the word at PC decodes to i, the step is exec of i on the state after the
fetch and the latches, then the counter and the host abort, which is the level of the input line (log entries 8 and 12). -/
def Obligations.StepRunsTheDecodedInstruction : Prop :=
  ∀ (s t : State) (i : Instr), s.pstate = .running → s.pc.toNat < 8192 →
    let w := Memory.read s.prog s.pc.toNat
    let f := fieldsOf w
    decode w = .ok i →
    exec i { s with pc := s.pc + 1, isa := f.op, a0 := f.a0, a1 := f.a1, a2 := f.a2,
                    fa := if f.flags.getLsbD 0 && f.flags.getLsbD 1 then f.a2 else s.fa } = .next t →
    step s = .next (if t.pstate = .running ∧ t.hostAbort = true
      then { t with clock := t.clock + 1, pstate := .errored, errCause := 12, exitPc := s.pc }
      else { t with clock := t.clock + 1 })

/-- 30_encoding.md R135: a stopped block stays as it is for any number of ticks. -/
def Obligations.StoppedBlockStaysStopped : Prop :=
  ∀ (s : State) (k : Nat), s.pstate ≠ .running → Sys2Proof.core.run k s = .next s

/-- Every instruction at every state, and every step, answers a next state: nothing is refused and nothing faults
(30_encoding.md R136, 60_exceptions.md R370; log entry 14). -/
def Obligations.EveryStepAnswersANextState : Prop :=
  (∀ (i : Instr) (s : State), ∃ t, exec i s = .next t) ∧ (∀ s : State, ∃ t, step s = .next t)

/-- 30_encoding.md R132: which ticks the clock counts. -/
def Obligations.ClockCountsExecutedInstructions : Prop :=
  ∀ s t : State, step s = .next t →
    t.clock = if s.pstate = .running ∧ s.pc.toNat < 8192 ∧ ((Memory.read s.prog s.pc.toNat).extractLsb' 56 8).toNat < 0x26
      then s.clock + 1 else s.clock

/-- 30_encoding.md R120: what the decoder writes in a tick, and when FA is written. -/
def Obligations.DecoderWritesItsLatchesOnly : Prop :=
  ∀ s t : State, step s = .next t →
    let w := Memory.read s.prog s.pc.toNat
    let f := fieldsOf w
    ((s.pstate = .running ∧ s.pc.toNat < 8192 ∧ f.op.toNat < 0x26) →
      t.isa = f.op ∧ t.a0 = f.a0 ∧ t.a1 = f.a1 ∧ t.a2 = f.a2 ∧
      t.fa = if f.flags.getLsbD 0 && f.flags.getLsbD 1 then f.a2 else s.fa) ∧
    (¬ (s.pstate = .running ∧ s.pc.toNat < 8192 ∧ f.op.toNat < 0x26) →
      t.isa = s.isa ∧ t.a0 = s.a0 ∧ t.a1 = s.a1 ∧ t.a2 = s.a2 ∧ t.fa = s.fa)

/-- 60_exceptions.md R382, R383 and R384, with the input line as the abort decision (log entry 8). The hook runs in exactly
the ticks that execute, and sees the state after the counter and before the stop: still RUNNING, the report as the tick found
it; a CONTINUE then becomes HOST_ABORT or stays, a HALT or an error is recorded whatever the line. The exit event fires in the
tick that stops the block, with an execute or without one, and in no later one, and carries what R384 names (log entry 18). -/
def Obligations.HostAbortAndHooks : Prop :=
  (∀ s : State, s.debugView.isSome = true ↔
    s.pstate = .running ∧ s.pc.toNat < 8192 ∧ ((Memory.read s.prog s.pc.toNat).extractLsb' 56 8).toNat < 0x26) ∧
  (∀ s v : State, s.debugView = some v →
    let w := Memory.read s.prog s.pc.toNat
    let f := fieldsOf w
    ∃ i u, decode w = .ok i ∧
      exec i { s with pc := s.pc + 1, isa := f.op, a0 := f.a0, a1 := f.a1, a2 := f.a2,
                      fa := if f.flags.getLsbD 0 && f.flags.getLsbD 1 then f.a2 else s.fa } = .next u ∧
      v = { u with clock := s.clock + 1, pstate := .running, errCause := s.errCause, exitPc := s.exitPc } ∧
      (u.pstate = .running → v.hostAbort = true →
        step s = .next { v with pstate := .errored, errCause := 12, exitPc := s.pc }) ∧
      (u.pstate = .running → v.hostAbort = false → step s = .next v) ∧
      (u.pstate ≠ .running →
        step s = .next { v with pstate := u.pstate, errCause := u.errCause, exitPc := u.exitPc })) ∧
  (∀ s t : State, step s = .next t →
    (s.pstate ≠ .running ∨ t.pstate = .running → exitEvent s t = none) ∧
    (s.pstate = .running → t.pstate ≠ .running → ∃ e, exitEvent s t = some e ∧
      e.status = t.pstate ∧ e.errCause = t.errCause ∧ e.exitPc = t.exitPc ∧ e.errWord = t.errWord ∧ e.isa = t.isa ∧
      e.a0 = t.a0 ∧ e.a1 = t.a1 ∧ e.a2 = t.a2 ∧ e.fa = t.fa ∧ e.clock = t.clock ∧ e.mem = t.mem ∧
      (e.exitCode = 0 ↔ e.status = .halted) ∧ (e.exitCode = 1 ↔ e.status = .errored) ∧
      ∀ u, step t = .next u → exitEvent t u = none)) ∧
  (∀ s : State, s.pstate = .running → ¬ s.pc.toNat < 8192 →
    ∃ t e, step s = .next t ∧ exitEvent s t = some e ∧ e.status = .halted ∧ e.errCause = 0 ∧ e.exitPc = s.pc ∧
      e.clock = s.clock ∧ e.mem = s.mem) ∧
  (∀ s : State, s.pstate = .running → s.pc.toNat < 8192 →
    0x26 ≤ ((Memory.read s.prog s.pc.toNat).extractLsb' 56 8).toNat →
    ∃ t e, step s = .next t ∧ exitEvent s t = some e ∧ e.status = .errored ∧ e.errCause = 1 ∧ e.exitPc = s.pc ∧
      e.errWord = Memory.read s.prog s.pc.toNat ∧ e.clock = s.clock ∧ e.mem = s.mem)

/-! ### Whole-machine rules -/

/-- 20_memory.md R97, and R95 for program memory: no step writes the graph or the program. -/
def Obligations.GraphAndProgramAreNeverWritten : Prop :=
  ∀ s t : State, step s = .next t → t.graph = s.graph ∧ t.prog = s.prog

/-- Besides the fetch, only JMP and the conditional branches write PC, and only with a legal target (10_state.md R39). -/
def Obligations.OnlyBranchesWritePc : Prop :=
  ∀ (i : Instr) (s t : State), exec i s = .next t →
    t.pc = s.pc ∨ ∃ a : Word, (i = .jmp a ∨ i = .bz a ∨ i = .bnz a ∨ i = .blt a ∨ i = .bge a) ∧ a.toNat < 8192 ∧ t.pc = a

/-- Who writes FLAGS: NNEXT, ENEXT, HASE and FEMPTY at most Z, CMP all three bits, nothing else any (10_state.md R41). -/
def Obligations.OnlyNamedInstructionsWriteFlags : Prop :=
  ∀ (i : Instr) (s t : State), exec i s = .next t →
    (i.opcode = .nnext ∨ i.opcode = .enext ∨ i.opcode = .hase ∨ i.opcode = .fempty → t.flags &&& 0xFE#8 = s.flags &&& 0xFE#8) ∧
    (i.opcode ≠ .nnext → i.opcode ≠ .enext → i.opcode ≠ .hase → i.opcode ≠ .fempty → i.opcode ≠ .cmp → t.flags = s.flags)

/-- 10_state.md R42: only the conditional branches read FLAGS. Any other instruction does the same whatever FLAGS holds,
FLAGS itself apart. -/
def Obligations.OnlyConditionalBranchesReadFlags : Prop :=
  ∀ (i : Instr) (s t : State) (v : BitVec 8), i.opcode ≠ .bz → i.opcode ≠ .bnz → i.opcode ≠ .blt → i.opcode ≠ .bge →
    exec i s = .next t → ∃ v', exec i { s with flags := v } = .next { t with flags := v' }

/-- Errors are precise (60_exceptions.md R374): an execute that ends in ERROR has one of the execute's causes 2 to 11 and
changes PSTATE, ERR_CAUSE and EXIT_PC only. -/
def Obligations.ErrorsArePrecise : Prop :=
  ∀ (i : Instr) (s t : State), s.pstate = .running → exec i s = .next t → t.pstate = .errored →
    ∃ code : BitVec 8, 2 ≤ code.toNat ∧ code.toNat ≤ 11 ∧ t = s.inError code

/-- Operand-field errors come exactly from ill-formed instructions (10_state.md R36; 60_exceptions.md R376): an ill-formed
instruction ends in REG_INDEX, ITER_INDEX or BRANCH_TARGET at every state, a well-formed one at none. -/
def Obligations.FieldErrorsIffIllFormed : Prop :=
  ∀ (i : Instr) (s : State),
    (i.wellFormed = false → exec i s = .next (s.inError 6) ∨ exec i s = .next (s.inError 4) ∨ exec i s = .next (s.inError 2)) ∧
    (i.wellFormed = true → s.pstate = .running → ∀ t, exec i s = .next t → t.pstate = .errored →
      t.errCause ≠ 6 ∧ t.errCause ≠ 4 ∧ t.errCause ≠ 2)

/-- The frame of every instruction: a part of the state outside `Instr.mayWrite` holds what it held, every register, every
flag bit, every cursor and queue, and every cell of data memory outside the cells the store's own address computation names
(10_state.md R41; 70_reset_and_hazards.md R407; the instruction rules); and PSTATE, ERR_CAUSE and EXIT_PC hold what they
held unless the instruction is HALT or the next state is an error taken on the start state (60_exceptions.md R374). -/
def Obligations.ExecWritesOnlyItsFootprint : Prop :=
  (∀ (i : Instr) (s t : State) (p : Part), exec i s = .next t → p ≠ .stopReport → ¬ i.mayWrite s p → p.Same s t) ∧
  (∀ (i : Instr) (s t : State), exec i s = .next t → i ≠ .halt → (∀ code, t ≠ s.inError code) → Part.stopReport.Same s t)

/-- 10_state.md R31 (R33 for Fzero): a write to Rzero is stored, every read gives 0, and no instruction and no step can
observe the storage cells. -/
def Obligations.ZeroRegistersReadZeroAndAreUnobservable : Prop :=
  (∀ (s : State) (v : Word), (s.writeR 20 v).r[20] = v ∧ (s.writeR 20 v).readR 20 = 0 ∧
    (s.writeF 17 v).f[17] = v ∧ (s.writeF 17 v).readF 17 = 0) ∧
  (∀ (i : Instr) (s s' t t' : State), s.maskZeroCells = s'.maskZeroCells → exec i s = .next t → exec i s' = .next t' →
    t.maskZeroCells = t'.maskZeroCells) ∧
  (∀ s s' t t' : State, s.maskZeroCells = s'.maskZeroCells → step s = .next t → step s' = .next t' →
    t.maskZeroCells = t'.maskZeroCells)

/-! ### Control flow -/

/-- 40_control.md R151: the execute, and the tick around it, which counts and records the HALT word's index. -/
def Obligations.HaltFollowsItsRule : Prop :=
  Opcode.halt.EncodedAs 0x00 ∧
  (∀ s : State, exec .halt s = .next { s with pstate := .halted, errCause := 0, exitPc := s.pc - 1 }) ∧
  ∀ s : State, s.pstate = .running → s.pc.toNat < 8192 →
    (Memory.read s.prog s.pc.toNat).extractLsb' 56 8 = 0x00#8 →
    ∃ t, step s = .next t ∧ t.pstate = .halted ∧ t.errCause = 0 ∧ t.exitPc = s.pc ∧ t.pc = s.pc + 1 ∧ t.clock = s.clock + 1

/-- 40_control.md R152 to R156: each branch at a legal target, taken and not taken, and at an illegal one. -/
def Obligations.BranchesFollowTheirRules : Prop :=
  Opcode.jmp.EncodedAs 0x01 ∧ Opcode.bz.EncodedAs 0x02 ∧ Opcode.bnz.EncodedAs 0x03 ∧ Opcode.blt.EncodedAs 0x04 ∧
  Opcode.bge.EncodedAs 0x05 ∧
  ∀ (s : State) (a : Word),
    (a.toNat < 8192 →
      exec (.jmp a) s = .next { s with pc := a } ∧
      exec (.bz a) s = .next { s with pc := if s.flags.getLsbD 0 = true then a else s.pc } ∧
      exec (.bnz a) s = .next { s with pc := if s.flags.getLsbD 0 = false then a else s.pc } ∧
      exec (.blt a) s = .next { s with pc := if s.flags.getLsbD 1 = true then a else s.pc } ∧
      exec (.bge a) s = .next { s with pc := if s.flags.getLsbD 2 = true ∨ s.flags.getLsbD 0 = true then a else s.pc }) ∧
    (¬ a.toNat < 8192 →
      exec (.jmp a) s = .next (s.inError 2) ∧ exec (.bz a) s = .next (s.inError 2) ∧ exec (.bnz a) s = .next (s.inError 2) ∧
      exec (.blt a) s = .next (s.inError 2) ∧ exec (.bge a) s = .next (s.inError 2))

/-- After CMP of two integers the next branches follow the signed order of the operands, extremes included (42_scalar.md
R227, 40_control.md R153 to R156; law 8.8 of 95_test_vectors.md). -/
def Obligations.CompareThenBranchFollowsSignedOrder : Prop :=
  ∀ (s t : State) (s1 : Byte) (s2 : Src2) (x y : Word) (a : Word),
    s.src1 .int (.reg s1) = .ok x → s.src2 .int s2 = .ok y → a.toNat < 8192 → exec (.cmp .int s1 s2) s = .next t →
    exec (.blt a) t = .next { t with pc := if x.toInt < y.toInt then a else t.pc } ∧
    exec (.bge a) t = .next { t with pc := if y.toInt ≤ x.toInt then a else t.pc } ∧
    exec (.bz a) t = .next { t with pc := if x = y then a else t.pc } ∧
    exec (.bnz a) t = .next { t with pc := if x ≠ y then a else t.pc }

/-! ### Graph iteration -/

/-- 41_graph.md R187. -/
def Obligations.NiterFollowsItsRule : Prop :=
  Opcode.niter.EncodedAs 0x06 ∧
  ∀ (s : State) (i : Byte),
    (∀ h : i.toNat < 4, exec (.niter i) s = .next { s with niter := s.niter.set i.toNat 0 h }) ∧
    (¬ i.toNat < 4 → exec (.niter i) s = .next (s.inError 4))

/-- 41_graph.md R188: an edge loaded, the end of the row, and every error in its order. -/
def Obligations.NnextFollowsItsRule : Prop :=
  Opcode.nnext.EncodedAs 0x07 ∧
  ∀ (s : State) (i : Byte),
    (¬ i.toNat < 4 → exec (.nnext i) s = .next (s.inError 4)) ∧
    ∀ h : i.toNat < 4,
      (¬ (0 ≤ (s.readR 0).toInt ∧ (s.readR 0).toInt < s.graph.n.toNat) → exec (.nnext i) s = .next (s.inError 7)) ∧
      ∀ u : Nat, (s.readR 0).toInt = u → u < s.graph.n.toNat →
        (s.graph.rowIndex[u]? = none ∨ s.graph.rowIndex[u + 1]? = none → exec (.nnext i) s = .next (s.inError 8)) ∧
        ∀ lo hi, s.graph.rowIndex[u]? = some lo → s.graph.rowIndex[u + 1]? = some hi →
          let slot : Int := lo.toInt + s.niter[i.toNat].toNat
          (hi.toInt ≤ slot → exec (.nnext i) s = .next { s with flags := s.flags ||| 0x01#8 }) ∧
          (slot < hi.toInt → (slot < 0 ∨ s.graph.colIndex[slot.toNat]? = none ∨ s.graph.values[slot.toNat]? = none) →
            exec (.nnext i) s = .next (s.inError 8)) ∧
          (∀ nb w, slot < hi.toInt → 0 ≤ slot → s.graph.colIndex[slot.toNat]? = some nb →
            s.graph.values[slot.toNat]? = some w →
            exec (.nnext i) s = .next { s with r := (s.r.set 1 nb).set 2 w,
                                               niter := s.niter.set i.toNat (s.niter[i.toNat] + 1) h,
                                               flags := s.flags &&& 0xFE#8 })

/-- 41_graph.md R189. -/
def Obligations.EiterFollowsItsRule : Prop :=
  Opcode.eiter.EncodedAs 0x08 ∧ ∀ s : State, exec .eiter s = .next { s with eiter := 0, r := s.r.set 0 0 }

/-- 41_graph.md R190: a negative Rnode; a walk already past the end; the next populated row `v` after exhausted rows; and all
rows exhausted. The offset into row `k` is eiter for the row the walk is in and 0 for a later one. -/
def Obligations.EnextFollowsItsRule : Prop :=
  Opcode.enext.EncodedAs 0x09 ∧
  ∀ s : State,
    ((s.readR 0).toInt < 0 → exec .enext s = .next (s.inError 7)) ∧
    ∀ u : Nat, (s.readR 0).toInt = u →
      (s.graph.n.toNat ≤ u → exec .enext s = .next { s with flags := s.flags ||| 0x01#8 }) ∧
      let offset (k : Nat) : Nat := if k = u then s.eiter.toNat else 0
      let exhausted (k : Nat) : Prop := ∃ lo hi, s.graph.rowIndex[k]? = some lo ∧ s.graph.rowIndex[k + 1]? = some hi ∧
        hi.toInt ≤ lo.toInt + offset k
      (u < s.graph.n.toNat → (∀ k, u ≤ k → k < s.graph.n.toNat → exhausted k) →
        exec .enext s = .next { s with r := s.r.set 0 s.graph.n, eiter := 0, flags := s.flags ||| 0x01#8 }) ∧
      ∀ v, u ≤ v → v < s.graph.n.toNat → (∀ k, u ≤ k → k < v → exhausted k) →
        (s.graph.rowIndex[v]? = none ∨ s.graph.rowIndex[v + 1]? = none → exec .enext s = .next (s.inError 8)) ∧
        ∀ lo hi, s.graph.rowIndex[v]? = some lo → s.graph.rowIndex[v + 1]? = some hi → lo.toInt + offset v < hi.toInt →
          let slot : Int := lo.toInt + offset v
          (slot < 0 ∨ s.graph.colIndex[slot.toNat]? = none ∨ s.graph.values[slot.toNat]? = none →
            exec .enext s = .next (s.inError 8)) ∧
          (∀ nb w, 0 ≤ slot → s.graph.colIndex[slot.toNat]? = some nb → s.graph.values[slot.toNat]? = some w →
            exec .enext s = .next { s with r := ((s.r.set 0 (BitVec.ofNat 32 v)).set 1 nb).set 2 w,
                                           eiter := BitVec.ofNat 32 (offset v + 1),
                                           flags := s.flags &&& 0xFE#8 })

/-- On a well-formed graph, EITER and then ENEXT again and again gives every edge once, in slot order, and then reports the
end (41_graph.md R190, "After EITER, successive ENEXTs emit every edge"; 20_memory.md R98). -/
def Obligations.EdgeWalkEmitsEveryEdgeOnce : Prop :=
  ∀ s t : State, s.graph.Premise → s.graph.n.toNat < 2 ^ 31 → exec .eiter s = .next t →
    (∀ (j : Nat) (nb w : Word), s.graph.colIndex[j]? = some nb → s.graph.values[j]? = some w →
      ∃ x lo hi, enextTimes (j + 1) t = .next x ∧ x.flagZ = false ∧ x.readR 1 = nb ∧ x.readR 2 = w ∧
        s.graph.rowIndex[(x.readR 0).toNat]? = some lo ∧ s.graph.rowIndex[(x.readR 0).toNat + 1]? = some hi ∧
        lo.toInt ≤ j ∧ j < hi.toInt) ∧
    ∃ x, enextTimes (s.graph.colIndex.length + 1) t = .next x ∧ x.flagZ = true ∧ x.readR 0 = s.graph.n

/-- 41_graph.md R191: a hit clears Z and a miss sets it, by membership in the row; errors as the rule names them. -/
def Obligations.HaseFollowsItsRule : Prop :=
  Opcode.hase.EncodedAs 0x0A ∧
  ∀ s : State,
    (¬ (0 ≤ (s.readR 0).toInt ∧ (s.readR 0).toInt < s.graph.n.toNat) → exec .hase s = .next (s.inError 7)) ∧
    ∀ u : Nat, (s.readR 0).toInt = u → u < s.graph.n.toNat →
      (s.graph.rowIndex[u]? = none ∨ s.graph.rowIndex[u + 1]? = none → exec .hase s = .next (s.inError 8)) ∧
      ∀ lo hi, s.graph.rowIndex[u]? = some lo → s.graph.rowIndex[u + 1]? = some hi →
        (lo.toInt < hi.toInt → (lo.toInt < 0 ∨ (s.graph.colIndex.length : Int) < hi.toInt) →
          exec .hase s = .next (s.inError 8)) ∧
        ((lo.toInt < hi.toInt → 0 ≤ lo.toInt ∧ hi.toInt ≤ s.graph.colIndex.length) →
          ((∃ j : Nat, lo.toInt ≤ j ∧ j < hi.toInt ∧ s.graph.colIndex[j]? = some (s.readR 1)) →
            exec .hase s = .next { s with flags := s.flags &&& 0xFE#8 }) ∧
          ((¬ ∃ j : Nat, lo.toInt ≤ j ∧ j < hi.toInt ∧ s.graph.colIndex[j]? = some (s.readR 1)) →
            exec .hase s = .next { s with flags := s.flags ||| 0x01#8 }))

/-- 41_graph.md R192. -/
def Obligations.DegFollowsItsRule : Prop :=
  Opcode.deg.EncodedAs 0x0B ∧
  ∀ (s : State) (r : Byte),
    (¬ r.toNat < 24 → exec (.deg r) s = .next (s.inError 6)) ∧
    ∀ h : r.toNat < 24,
      let node := s.readR ⟨r.toNat, h⟩
      (¬ (0 ≤ node.toInt ∧ node.toInt < s.graph.n.toNat) → exec (.deg r) s = .next (s.inError 7)) ∧
      (∀ (u : Nat) (lo hi : Word), node.toInt = u → u < s.graph.n.toNat → s.graph.rowIndex[u]? = some lo →
        s.graph.rowIndex[u + 1]? = some hi → exec (.deg r) s = .next { s with r := s.r.set 2 (hi - lo) })

/-- CSR_BOUNDS happens only when the launch premise is broken: on a well-formed graph no run ends in it, from any state that
has not (41_graph.md R182, 20_memory.md R98). -/
def Obligations.CsrBoundsOnlyWhenPremiseBroken : Prop :=
  ∀ (k : Nat) (s t : State), s.graph.Premise → s.errCause ≠ 8 → Sys2Proof.core.run k s = .next t → t.errCause ≠ 8

/-! ### Scalar arithmetic, compare, move, convert -/

/-- 42_scalar.md R223, R224, R225. -/
def Obligations.AddSubMulFollowTheirRules : Prop :=
  Opcode.add.EncodedAs 0x0C ∧ ArithRule .add (fun a b => a + b) fadd32 ∧
  Opcode.sub.EncodedAs 0x0D ∧ ArithRule .sub (fun a b => a - b) fsub32 ∧
  Opcode.mul.EncodedAs 0x0E ∧ ArithRule .mul (fun a b => a * b) fmul32

/-- 42_scalar.md R226 (with the sign table of R220): integer division truncates toward zero, -2^31 / -1 is -2^31, a zero
divisor is DIV_ZERO with nothing written; float division never errs. -/
def Obligations.DivFollowsItsRule : Prop :=
  Opcode.div.EncodedAs 0x0F ∧
  (∀ (s : State) (d s1 : Byte) (s2 : Src2) (a b : Word), s.src1 .int (.reg s1) = .ok a → s.src2 .int s2 = .ok b →
    ∀ hd : d.toNat < 24,
      (b = 0 → exec (.div .int d s1 s2) s = .next (s.inError 5)) ∧
      (b ≠ 0 → ∃ q : Word, q.toInt = (if a.toInt = -2 ^ 31 ∧ b.toInt = -1 then -2 ^ 31 else a.toInt.tdiv b.toInt) ∧
        exec (.div .int d s1 s2) s = .next { s with r := s.r.set d.toNat q hd })) ∧
  (∀ (s : State) (d s1 : Byte) (s2 : Src2) (a b : Word), s.src1 .float (.reg s1) = .ok a → s.src2 .float s2 = .ok b →
    ∀ hd : d.toNat < 18, exec (.div .float d s1 s2) s = .next { s with f := s.f.set d.toNat (fdiv32 a b) hd }) ∧
  (∀ (s : State) (b : Bank) (d s1 : Byte) (s2 : Src2),
    ¬ d.toNat < b.scalars ∨ ¬ s1.toNat < b.scalars ∨ (∃ i, s2 = .reg i ∧ ¬ i.toNat < b.scalars) →
    exec (.div b d s1 s2) s = .next (s.inError 6))

/-- 42_scalar.md R227: the exact integer difference; the float difference by sign, CMPF_UNORDERED for a NaN (the free value
of log entry 5); bits 3 to 7 of FLAGS are written 0. -/
def Obligations.CmpFollowsItsRule : Prop :=
  Opcode.cmp.EncodedAs 0x10 ∧
  (∀ (s : State) (s1 : Byte) (s2 : Src2) (a b : Word), s.src1 .int (.reg s1) = .ok a → s.src2 .int s2 = .ok b →
    exec (.cmp .int s1 s2) s =
      .next { s with flags := if a.toInt - b.toInt = 0 then 0x01 else if a.toInt - b.toInt < 0 then 0x02 else 0x04 }) ∧
  (∀ (s : State) (s1 : Byte) (s2 : Src2) (a b : Word), s.src1 .float (.reg s1) = .ok a → s.src2 .float s2 = .ok b →
    let d := fsub32 a b
    exec (.cmp .float s1 s2) s =
      .next { s with flags := if f32IsNaN d = true then 0#5 ++ Config.cmpfUnordered
        else if f32Value d = 0 then 0x01 else if f32Value d < 0 then 0x02 else 0x04 }) ∧
  (∀ (s : State) (b : Bank) (s1 : Byte) (s2 : Src2),
    ¬ s1.toNat < b.scalars ∨ (∃ i, s2 = .reg i ∧ ¬ i.toNat < b.scalars) → exec (.cmp b s1 s2) s = .next (s.inError 6))

/-- For finite operands a float CMP orders the values exactly: because subnormals are kept, the rounded difference is zero
only for equal values (42_scalar.md R227; the format and the operation: log entry 16). -/
def Obligations.FloatCompareOrdersFiniteValues : Prop :=
  ∀ (s : State) (s1 : Byte) (s2 : Src2) (a b : Word), s.src1 .float (.reg s1) = .ok a → s.src2 .float s2 = .ok b →
    f32IsFinite a = true → f32IsFinite b = true →
    exec (.cmp .float s1 s2) s =
      .next { s with flags := if f32Value a = f32Value b then 0x01 else if f32Value a < f32Value b then 0x02 else 0x04 }

/-- 42_scalar.md R228. -/
def Obligations.MovFollowsItsRule : Prop :=
  Opcode.mov.EncodedAs 0x11 ∧
  (∀ (s : State) (d i : Byte) (hd : d.toNat < 24) (hi : i.toNat < 24),
    exec (.mov .int d (.reg i)) s = .next { s with r := s.r.set d.toNat (s.readR ⟨i.toNat, hi⟩) hd }) ∧
  (∀ (s : State) (d : Byte) (v : Word) (hd : d.toNat < 24),
    exec (.mov .int d (.imm v)) s = .next { s with r := s.r.set d.toNat v hd }) ∧
  (∀ (s : State) (d i : Byte) (hd : d.toNat < 18) (hi : i.toNat < 18),
    exec (.mov .float d (.reg i)) s = .next { s with f := s.f.set d.toNat (s.readF ⟨i.toNat, hi⟩) hd }) ∧
  (∀ (s : State) (d : Byte) (v : Word) (hd : d.toNat < 18),
    exec (.mov .float d (.imm v)) s = .next { s with f := s.f.set d.toNat v hd }) ∧
  (∀ (s : State) (b : Bank) (d : Byte) (x : Src1),
    ¬ d.toNat < b.scalars ∨ (∃ i, x = .reg i ∧ ¬ i.toNat < b.scalars) → exec (.mov b d x) s = .next (s.inError 6))

/-- 42_scalar.md R229: int to float rounds to nearest even; float to int truncates, and gives F2I_INVALID (the free value of
log entry 6) for a NaN, an infinity and a value outside the i32 range. That the integer 0 gives +0.0 and not -0.0, which the
rule does not say, is a clause of `FloatSpecialValuesAndZeroSigns`. -/
def Obligations.MovcFollowsItsRule : Prop :=
  Opcode.movc.EncodedAs 0x12 ∧
  (∀ (s : State) (d i : Byte) (hd : d.toNat < 18) (hi : i.toNat < 24),
    ∃ v : Word, NearestEven v ((s.readR ⟨i.toNat, hi⟩).toInt * 2 ^ 149) 1 ∧
      exec (.movc .float d i) s = .next { s with f := s.f.set d.toNat v hd }) ∧
  (∀ (s : State) (d i : Byte) (hd : d.toNat < 24) (hi : i.toNat < 18),
    let x := s.readF ⟨i.toNat, hi⟩
    let n := (f32Value x).tdiv (2 ^ 149)
    (f32IsFinite x = true → -2 ^ 31 ≤ n → n ≤ 2 ^ 31 - 1 →
      ∃ v : Word, v.toInt = n ∧ exec (.movc .int d i) s = .next { s with r := s.r.set d.toNat v hd }) ∧
    (f32IsFinite x = false ∨ n < -2 ^ 31 ∨ 2 ^ 31 - 1 < n →
      exec (.movc .int d i) s = .next { s with r := s.r.set d.toNat (Config.f2iInvalid x) hd })) ∧
  (∀ (s : State) (b : Bank) (d i : Byte), ¬ d.toNat < b.scalars ∨ ¬ i.toNat < b.other.scalars →
    exec (.movc b d i) s = .next (s.inError 6))

/-- 42_scalar.md R221: the sum, difference, product and quotient of finite operands are the nearest binary32 value to the
exact result, ties to even, subnormals kept, and an infinity exactly where the exact result is past the largest finite
value by half a unit in its last place or more. Values are in units of 2^-149. The sign, a zero result's too, is the exclusive
or of the operands' signs for a product or quotient, and a zero sum or difference is -0.0 only where both terms are -0.0: R223
and R224 say so of -0.0 + -0.0 and of s - s, the rest is IEEE 754's, PRESUMED (log entry 16). Other operands:
`FloatSpecialValuesAndZeroSigns`. -/
def Obligations.FloatResultsAreCorrectlyRounded : Prop :=
  ∀ a b : Word, f32IsFinite a = true → f32IsFinite b = true →
    let fits (num : Int) (den : Nat) : Prop := 2 * num.natAbs < (2 ^ 25 - 1) * 2 ^ 253 * den
    let rounds (v : Word) (num : Int) (den : Nat) : Prop :=
      (fits num den → NearestEven v num den) ∧
      (¬ fits num den → f32IsInf v = true ∧ (f32Negative v = true ↔ num < 0))
    rounds (fadd32 a b) (f32Value a + f32Value b) 1 ∧
    rounds (fsub32 a b) (f32Value a - f32Value b) 1 ∧
    rounds (fmul32 a b) (f32Value a * f32Value b) (2 ^ 149) ∧
    (f32Value b ≠ 0 → rounds (fdiv32 a b) ((if f32Value b < 0 then -f32Value a else f32Value a) * 2 ^ 149)
      (f32Value b).natAbs) ∧
    (f32Value a + f32Value b = 0 →
      fadd32 a b = if f32Negative a = true ∧ f32Negative b = true then 0x80000000#32 else 0x00000000#32) ∧
    (f32Value a - f32Value b = 0 →
      fsub32 a b = if f32Negative a = true ∧ f32Negative b = false then 0x80000000#32 else 0x00000000#32) ∧
    f32Negative (fmul32 a b) = (f32Negative a != f32Negative b) ∧
    (f32Value b ≠ 0 → f32Negative (fdiv32 a b) = (f32Negative a != f32Negative b))

/-! ### Loads and stores -/

/-- 43_memory_ops.md R261: a load at every address form, in both banks, and its errors. -/
def Obligations.LdFollowsItsRule : Prop :=
  Opcode.ld.EncodedAs 0x13 ∧
  ∀ (s : State) (d : Byte) (x : Src1),
    (∀ b : Bank, ¬ d.toNat < b.scalars ∨ s.addressOf x = none → exec (.ld b d x) s = .next (s.inError 6)) ∧
    (∀ (b : Bank) (a : Int), d.toNat < b.scalars → s.addressOf x = some a → ¬ (0 ≤ a ∧ a < 65536) →
      exec (.ld b d x) s = .next (s.inError 3)) ∧
    (∀ (a : Nat) (hd : d.toNat < 24), s.addressOf x = some (a : Int) → a < 65536 →
      exec (.ld .int d x) s = .next { s with r := s.r.set d.toNat (s.readMem a) hd }) ∧
    (∀ (a : Nat) (hd : d.toNat < 18), s.addressOf x = some (a : Int) → a < 65536 →
      exec (.ld .float d x) s = .next { s with f := s.f.set d.toNat (s.readMem a) hd })

/-- 43_memory_ops.md R262: a store changes its one cell and nothing else; on an error no cell changes. -/
def Obligations.StFollowsItsRule : Prop :=
  Opcode.st.EncodedAs 0x14 ∧
  ∀ (s : State) (d : Byte) (x : Src1),
    (∀ b : Bank, ¬ d.toNat < b.scalars ∨ s.addressOf x = none → exec (.st b d x) s = .next (s.inError 6)) ∧
    (∀ (b : Bank) (a : Int), d.toNat < b.scalars → s.addressOf x = some a → ¬ (0 ≤ a ∧ a < 65536) →
      exec (.st b d x) s = .next (s.inError 3)) ∧
    (∀ (a : Nat) (hd : d.toNat < 24), s.addressOf x = some (a : Int) → a < 65536 →
      ∃ t, exec (.st .int d x) s = .next t ∧ t = { s with mem := t.mem } ∧
        ∀ c, t.readMem c = if c = a then s.readR ⟨d.toNat, hd⟩ else s.readMem c) ∧
    (∀ (a : Nat) (hd : d.toNat < 18), s.addressOf x = some (a : Int) → a < 65536 →
      ∃ t, exec (.st .float d x) s = .next t ∧ t = { s with mem := t.mem } ∧
        ∀ c, t.readMem c = if c = a then s.readF ⟨d.toNat, hd⟩ else s.readMem c)

/-- 20_memory.md R82: a store in one bank and a load in the other move the 32-bit pattern unchanged. -/
def Obligations.StoreThenLoadMovesThePattern : Prop :=
  ∀ (s t u : State) (b b' : Bank) (d d' : Byte) (v : Word) (k : Fin b.scalars) (k' : Fin b'.scalars),
    k.val = d.toNat → k'.val = d'.toNat → v.toNat < 65536 →
    exec (.st b d (.imm v)) s = .next t → exec (.ld b' d' (.imm v)) t = .next u →
    (match b', k' with
      | .int, k' => u.r[k'.val]
      | .float, k' => u.f[k'.val]) = s.readScalar b k

/-! ### Frontiers -/

/-- 44_frontier.md R287. -/
def Obligations.FpushFollowsItsRule : Prop :=
  Opcode.fpush.EncodedAs 0x15 ∧
  ∀ (s : State) (r : Byte),
    let q := s.q[(1 - s.cur).val]
    (¬ r.toNat < 24 → exec (.fpush r) s = .next (s.inError 6)) ∧
    ∀ h : r.toNat < 24,
      (q.kind ≠ .queue → exec (.fpush r) s = .next (s.inError 11)) ∧
      (q.kind = .queue → q.size = 1024 → exec (.fpush r) s = .next (s.inError 9)) ∧
      (q.kind = .queue → q.size ≠ 1024 →
        let q' : Frontier :=
          { q with slot := Memory.write q.slot (q.back.toNat % 1024) (s.readR ⟨r.toNat, h⟩), back := q.back + 1 }
        exec (.fpush r) s = .next { s with q := s.q.set (1 - s.cur).val q' })

/-- 44_frontier.md R288. -/
def Obligations.FpopFollowsItsRule : Prop :=
  Opcode.fpop.EncodedAs 0x16 ∧
  ∀ (s : State) (r : Byte),
    let q := s.q[s.cur.val]
    (¬ r.toNat < 24 → exec (.fpop r) s = .next (s.inError 6)) ∧
    ∀ h : r.toNat < 24,
      (q.kind ≠ .queue → exec (.fpop r) s = .next (s.inError 11)) ∧
      (q.kind = .queue → q.front = q.back → exec (.fpop r) s = .next (s.inError 10)) ∧
      (q.kind = .queue → q.front ≠ q.back →
        let q' : Frontier := { q with front := q.front + 1 }
        exec (.fpop r) s = .next { s with r := s.r.set r.toNat (Memory.read q.slot (q.front.toNat % 1024)) h,
                                          q := s.q.set s.cur.val q' })

/-- 44_frontier.md R289. -/
def Obligations.FemptyFollowsItsRule : Prop :=
  Opcode.fempty.EncodedAs 0x17 ∧
  ∀ s : State,
    let q := s.q[s.cur.val]
    (q.kind ≠ .queue → exec .fempty s = .next (s.inError 11)) ∧
    (q.kind = .queue → q.front = q.back → exec .fempty s = .next { s with flags := s.flags ||| 0x01#8 }) ∧
    (q.kind = .queue → q.front ≠ q.back → exec .fempty s = .next { s with flags := s.flags &&& 0xFE#8 })

/-- 44_frontier.md R290: the roles change, the old current is emptied and keeps its kind, the new current is the old next. -/
def Obligations.FswapFollowsItsRule : Prop :=
  Opcode.fswap.EncodedAs 0x18 ∧
  ∀ s : State, ∃ t, exec .fswap s = .next t ∧ t = { s with cur := t.cur, q := t.q } ∧ t.cur = 1 - s.cur ∧
    t.q[t.cur.val] = s.q[(1 - s.cur).val] ∧ t.q[(1 - t.cur).val].kind = s.q[s.cur.val].kind ∧
    t.q[(1 - t.cur).val].front = 0 ∧ t.q[(1 - t.cur).val].back = 0 ∧ t.q[(1 - t.cur).val].contents = []

/-- 44_frontier.md R291: every node id in ascending order after what current holds, or nothing at all. -/
def Obligations.FfillFollowsItsRule : Prop :=
  Opcode.ffill.EncodedAs 0x19 ∧
  ∀ s : State,
    let q := s.q[s.cur.val]
    (q.kind ≠ .queue → exec .ffill s = .next (s.inError 11)) ∧
    (q.kind = .queue → 1024 < q.size + s.graph.n.toNat → exec .ffill s = .next (s.inError 9)) ∧
    (q.kind = .queue → q.size + s.graph.n.toNat ≤ 1024 →
      ∃ q', exec .ffill s = .next { s with q := s.q.set s.cur.val q' } ∧ q'.kind = .queue ∧ q'.front = q.front ∧
        q'.contents = q.contents ++ (List.range s.graph.n.toNat).map (BitVec.ofNat 32))

/-- 44_frontier.md R292: a ring buffer does what a bounded list does, for every sequence of pushes and pops, with the same
popped values and the same errors; it is empty exactly when its contents are; and FPUSH, FSWAP, FPOP gives the value back. -/
def Obligations.FrontierRefinesBoundedList : Prop :=
  (∀ (ops : List QueueOp) (q : Frontier), q.kind = .queue → q.size ≤ 1024 →
    (∀ outs l, listRunOps ops q.contents = .ok (outs, l) →
      ∃ q', Frontier.runOps ops q = .ok (outs, q') ∧ q'.contents = l ∧ (q'.isEmpty = true ↔ l = [])) ∧
    (∀ c, listRunOps ops q.contents = .error c → Frontier.runOps ops q = .error c)) ∧
  (∀ (s t u v : State) (r r' : Byte) (hr : r.toNat < 24) (hr' : r'.toNat < 24),
    s.nextQ.kind = .queue → s.nextQ.isEmpty = true →
    exec (.fpush r) s = .next t → exec .fswap t = .next u → exec (.fpop r') u = .next v →
    v.r[r'.toNat] = s.readR ⟨r.toNat, hr⟩ ∧ v.nextQ.isEmpty = true)

/-! ### Vectors -/

/-- 45_vector.md R322, R323, R324. -/
def Obligations.VaddVsubVmulFollowTheirRules : Prop :=
  Opcode.vadd.EncodedAs 0x1A ∧ LaneRule .vadd (fun a b => a + b) fadd32 ∧
  Opcode.vsub.EncodedAs 0x1B ∧ LaneRule .vsub (fun a b => a - b) fsub32 ∧
  Opcode.vmul.EncodedAs 0x1C ∧ LaneRule .vmul (fun a b => a * b) fmul32

/-- 45_vector.md R325: lane k is the scalar quotient of lane k; a zero integer divisor in any lane is DIV_ZERO and no lane
is written. -/
def Obligations.VdivFollowsItsRule : Prop :=
  Opcode.vdiv.EncodedAs 0x1D ∧
  (∀ (s : State) (d s1 : Byte) (s2 : Word) (hd : d.toNat < 16) (h1 : s1.toNat < 16) (h2 : s2.toNat < 16),
    let x := s.vr[s1.toNat]
    let y := s.vr[s2.toNat]
    ((∃ k, y.lane k = 0) → exec (.vdiv .int d s1 s2) s = .next (s.inError 5)) ∧
    ((∀ k, y.lane k ≠ 0) → ∃ v : Lanes,
      (∀ k, (v.lane k).toInt = if (x.lane k).toInt = -2 ^ 31 ∧ (y.lane k).toInt = -1 then -2 ^ 31
        else (x.lane k).toInt.tdiv (y.lane k).toInt) ∧
      exec (.vdiv .int d s1 s2) s = .next { s with vr := s.vr.set d.toNat v hd }) ∧
    ∃ v : Lanes, (∀ k, v.lane k = fdiv32 (s.vf[s1.toNat].lane k) (s.vf[s2.toNat].lane k)) ∧
      exec (.vdiv .float d s1 s2) s = .next { s with vf := s.vf.set d.toNat v hd }) ∧
  (∀ (s : State) (b : Bank) (d s1 : Byte) (s2 : Word), ¬ d.toNat < 16 ∨ ¬ s1.toNat < 16 ∨ ¬ s2.toNat < 16 →
    exec (.vdiv b d s1 s2) s = .next (s.inError 6))

/-- 45_vector.md R326. -/
def Obligations.VldFollowsItsRule : Prop :=
  Opcode.vld.EncodedAs 0x1E ∧
  ∀ (s : State) (d : Byte) (x : Src1),
    (∀ b : Bank, ¬ d.toNat < 16 ∨ s.addressOf x = none → exec (.vld b d x) s = .next (s.inError 6)) ∧
    (∀ (b : Bank) (a : Int), d.toNat < 16 → s.addressOf x = some a → ¬ (0 ≤ a ∧ a + 4 ≤ 65536) →
      exec (.vld b d x) s = .next (s.inError 3)) ∧
    (∀ (a : Nat) (hd : d.toNat < 16), s.addressOf x = some (a : Int) → a + 4 ≤ 65536 →
      let v : Lanes := ⟨s.readMem a, s.readMem (a + 1), s.readMem (a + 2), s.readMem (a + 3)⟩
      exec (.vld .int d x) s = .next { s with vr := s.vr.set d.toNat v hd } ∧
      exec (.vld .float d x) s = .next { s with vf := s.vf.set d.toNat v hd })

/-- 45_vector.md R327: a vector store changes its four cells and nothing else. -/
def Obligations.VstFollowsItsRule : Prop :=
  Opcode.vst.EncodedAs 0x1F ∧
  ∀ (s : State) (d : Byte) (x : Src1),
    (∀ b : Bank, ¬ d.toNat < 16 ∨ s.addressOf x = none → exec (.vst b d x) s = .next (s.inError 6)) ∧
    (∀ (b : Bank) (a : Int), d.toNat < 16 → s.addressOf x = some a → ¬ (0 ≤ a ∧ a + 4 ≤ 65536) →
      exec (.vst b d x) s = .next (s.inError 3)) ∧
    (∀ (b : Bank) (a : Nat) (hd : d.toNat < 16), s.addressOf x = some (a : Int) → a + 4 ≤ 65536 →
      let v : Lanes := match b with
        | .int => s.vr[d.toNat]
        | .float => s.vf[d.toNat]
      ∃ t, exec (.vst b d x) s = .next t ∧ t = { s with mem := t.mem } ∧
        (∀ k : Fin 4, t.readMem (a + k.val) = v.lane k) ∧
        (∀ c, ¬ (a ≤ c ∧ c < a + 4) → t.readMem c = s.readMem c))

/-- 45_vector.md R328. -/
def Obligations.VsetFollowsItsRule : Prop :=
  Opcode.vset.EncodedAs 0x20 ∧
  (∀ (s : State) (d i : Byte) (hd : d.toNat < 16) (hi : i.toNat < 24),
    let v := s.readR ⟨i.toNat, hi⟩
    exec (.vset .int d (.reg i)) s = .next { s with vr := s.vr.set d.toNat ⟨v, v, v, v⟩ hd }) ∧
  (∀ (s : State) (d i : Byte) (hd : d.toNat < 16) (hi : i.toNat < 18),
    let v := s.readF ⟨i.toNat, hi⟩
    exec (.vset .float d (.reg i)) s = .next { s with vf := s.vf.set d.toNat ⟨v, v, v, v⟩ hd }) ∧
  (∀ (s : State) (d : Byte) (v : Word) (hd : d.toNat < 16),
    exec (.vset .int d (.imm v)) s = .next { s with vr := s.vr.set d.toNat ⟨v, v, v, v⟩ hd } ∧
    exec (.vset .float d (.imm v)) s = .next { s with vf := s.vf.set d.toNat ⟨v, v, v, v⟩ hd }) ∧
  (∀ (s : State) (b : Bank) (d : Byte) (x : Src1),
    ¬ d.toNat < 16 ∨ (∃ i, x = .reg i ∧ ¬ i.toNat < b.scalars) → exec (.vset b d x) s = .next (s.inError 6))

/-- 45_vector.md R329: the lanes are added to the old destination, in order; the float sums are rounded one by one. -/
def Obligations.VsumFollowsItsRule : Prop :=
  Opcode.vsum.EncodedAs 0x21 ∧
  (∀ (s : State) (d i : Byte) (hd : d.toNat < 24) (hi : i.toNat < 16),
    let v := s.vr[i.toNat]
    exec (.vsum .int d i) s =
      .next { s with r := s.r.set d.toNat (s.readR ⟨d.toNat, hd⟩ + v.l0 + v.l1 + v.l2 + v.l3) hd }) ∧
  (∀ (s : State) (d i : Byte) (hd : d.toNat < 18) (hi : i.toNat < 16),
    let v := s.vf[i.toNat]
    let sum := fadd32 (fadd32 (fadd32 (fadd32 (s.readF ⟨d.toNat, hd⟩) v.l0) v.l1) v.l2) v.l3
    exec (.vsum .float d i) s = .next { s with f := s.f.set d.toNat sum hd }) ∧
  (∀ (s : State) (b : Bank) (d i : Byte), ¬ i.toNat < 16 ∨ ¬ d.toNat < b.scalars →
    exec (.vsum b d i) s = .next (s.inError 6))

/-! ### Multicore -/

/-- 46_multicore.md R364: the four opcodes write nothing, and their tick does what every tick does (with the input
line of log entry 8 low). -/
def Obligations.MulticoreOpcodesAreNoOps : Prop :=
  Opcode.parallel.EncodedAs 0x22 ∧ Opcode.barrier.EncodedAs 0x23 ∧ Opcode.lock.EncodedAs 0x24 ∧
  Opcode.unlock.EncodedAs 0x25 ∧
  (∀ s : State, exec .parallel s = .next s ∧ exec .barrier s = .next s ∧ exec .lock s = .next s ∧ exec .unlock s = .next s) ∧
  (∀ s : State, s.pstate = .running → s.pc.toNat < 8192 → s.hostAbort = false →
    let w := Memory.read s.prog s.pc.toNat
    let f := fieldsOf w
    0x22 ≤ f.op.toNat → f.op.toNat ≤ 0x25 →
    step s = .next { s with pc := s.pc + 1, clock := s.clock + 1, isa := f.op, a0 := f.a0, a1 := f.a1, a2 := f.a2,
                            fa := if f.flags.getLsbD 0 && f.flags.getLsbD 1 then f.a2 else s.fa })

/-! ### Special float values -/

/-- The special values of 42_scalar.md R221 and of the corner cases of R223, R225 and R226: NAN_RESULT is a NaN (which one is
the free value of log entry 4); a NaN operand, ∞-∞, 0·∞, 0/0 and ∞/∞ give it; a finite nonzero value over a zero is an
infinity, and an infinite operand gives an infinity or a zero, by the sign rule; s - s = +0.0 for a finite s (R224). What R221
names but does not spell out (the sign rule, a NaN operand, infinite operands) and the +0.0 of MOVC of 0 are IEEE 754's,
PRESUMED (log entry 16). -/
def Obligations.FloatSpecialValuesAndZeroSigns : Prop :=
  (∀ (op : FpOp) (a b : Word), f32IsNaN (Config.nanResult op a b) = true) ∧
  (∀ a b : Word,
    let inf : Word := if f32Negative a = f32Negative b then 0x7F800000 else 0xFF800000
    let zero : Word := if f32Negative a = f32Negative b then 0x00000000 else 0x80000000
    (f32IsNaN a = true ∨ f32IsNaN b = true →
      fadd32 a b = Config.nanResult .add a b ∧ fsub32 a b = Config.nanResult .sub a b ∧
      fmul32 a b = Config.nanResult .mul a b ∧ fdiv32 a b = Config.nanResult .div a b) ∧
    (f32IsInf a = true → f32IsInf b = true →
      (f32Negative a = f32Negative b → fadd32 a b = a ∧ fsub32 a b = Config.nanResult .sub a b) ∧
      (f32Negative a ≠ f32Negative b → fadd32 a b = Config.nanResult .add a b ∧ fsub32 a b = a) ∧
      fmul32 a b = inf ∧ fdiv32 a b = Config.nanResult .div a b) ∧
    (f32IsInf a = true → f32IsFinite b = true →
      fadd32 a b = a ∧ fsub32 a b = a ∧ fdiv32 a b = inf ∧
      (f32Value b = 0 → fmul32 a b = Config.nanResult .mul a b) ∧ (f32Value b ≠ 0 → fmul32 a b = inf)) ∧
    (f32IsFinite a = true → f32IsInf b = true →
      fadd32 a b = b ∧ fsub32 a b = b ^^^ 0x80000000#32 ∧ fdiv32 a b = zero ∧
      (f32Value a = 0 → fmul32 a b = Config.nanResult .mul a b) ∧ (f32Value a ≠ 0 → fmul32 a b = inf)) ∧
    (f32IsFinite a = true → f32IsFinite b = true → f32Value b = 0 →
      (f32Value a = 0 → fdiv32 a b = Config.nanResult .div a b) ∧ (f32Value a ≠ 0 → fdiv32 a b = inf))) ∧
  (∀ x : Word, f32IsFinite x = true → fsub32 x x = 0x00000000#32) ∧
  (∀ (s : State) (d i : Byte) (hd : d.toNat < 18) (hi : i.toNat < 24), s.readR ⟨i.toNat, hi⟩ = 0 →
    exec (.movc .float d i) s = .next { s with f := s.f.set d.toNat 0x00000000#32 hd })
end

