-- ==== Sys2Proof/Laws/Decode.lean ====
section
/-! SUPPORT. Small facts about the opcode map and the fields of an operand. -/

namespace Sys2Proof

/-- The map of R113 read back: every opcode's byte names the opcode. -/
@[simp] theorem Opcode.ofByte?_byte (o : Opcode) : Opcode.ofByte? o.byte = some o := by cases o <;> decide

/-- A byte that names an opcode is the opcode's byte. -/
theorem Opcode.byte_of_ofByte? {v : Byte} {o : Opcode} (h : Opcode.ofByte? v = some o) : o.byte = v := by
  simpa using List.find?_some h

/-- Distinct opcodes have distinct bytes. -/
theorem Opcode.byte_injective {o p : Opcode} (h : o.byte = p.byte) : o = p := by
  simpa using congrArg Opcode.ofByte? h

@[simp] theorem Fields.immediate_flagByte (op a0 a1 : Byte) (a2 : Word) (i : Bool) (b : Bank) :
    (Fields.mk op (flagByte i b) a0 a1 a2).immediate = i := by
  cases i <;> cases b <;> simp [Fields.immediate, flagByte]

@[simp] theorem Fields.bank_flagByte (op a0 a1 : Byte) (a2 : Word) (i : Bool) (b : Bank) :
    (Fields.mk op (flagByte i b) a0 a1 a2).bank = b := by
  cases i <;> cases b <;> simp [Fields.bank, Fields.floating, flagByte]

@[simp] theorem Fields.src2_flagByte (op a0 a1 : Byte) (b : Bank) (x : Src2) :
    (Fields.mk op (flagByte x.immediate b) a0 a1 x.a2).src2 = x := by
  cases x <;> simp [Fields.src2, Src2.immediate, Src2.a2]

@[simp] theorem Fields.src1_flagByte (op a0 : Byte) (b : Bank) (x : Src1) :
    (Fields.mk op (flagByte x.immediate b) a0 x.a1 x.a2).src1 = x := by
  cases x <;> simp [Fields.src1, Src1.immediate, Src1.a1, Src1.a2]

/-- Decoding by the opcode of the opcode field. -/
theorem decode_of_ofByte? {w : ProgWord} {o : Opcode} (h : Opcode.ofByte? (fieldsOf w).op = some o) :
    decode w = .ok (assemble o (fieldsOf w)) := by simp [decode, h]

end Sys2Proof
end

