-- ==== Sys2Proof/Laws/Memory.lean ====
section
/-! SUPPORT. The laws of the sparse memory: a read after a write to the same cell gives the value written, a write leaves
every other cell alone, every operation keeps the canonical form, and a memory in canonical form is its reads. -/

namespace Sys2Proof.Machine

variable {w : Nat}

@[simp] theorem Memory.read_nil (a : Nat) : Memory.read ([] : Memory w) a = 0#w := rfl

theorem Memory.read_cons (c : Nat × BitVec w) (m : Memory w) (a : Nat) :
    Memory.read (c :: m) a = if a = c.1 then c.2 else Memory.read m a := rfl

theorem Memory.read_eq_unlisted_of_notMem (m : Memory w) (a : Nat) (h : ∀ c ∈ m, c.1 ≠ a) :
    Memory.read m a = 0#w := by
  induction m with
  | nil => rfl
  | cons c m ih =>
    rw [Memory.read_cons, if_neg (fun e => h c (by simp) e.symm)]
    exact ih fun d hd => h d (by simp [hd])

theorem Memory.read_insert (m : Memory w) (a b : Nat) (v : BitVec w) :
    Memory.read (Memory.insert m a v) b = if b = a then v else Memory.read m b := by
  induction m with
  | nil => simp [Memory.insert, Memory.read_cons]
  | cons c m ih =>
    simp only [Memory.insert]
    split
    · simp [Memory.read_cons]
    · split
      · subst a; simp only [Memory.read_cons]; split <;> simp_all
      · rename_i hne
        simp only [Memory.read_cons, ih]
        by_cases hc : b = c.1
        · have : c.1 ≠ a := fun e => hne e.symm
          simp [hc, this]
        · simp [hc]

theorem Memory.read_erase (m : Memory w) (a b : Nat) :
    Memory.read (Memory.erase m a) b = if b = a then 0#w else Memory.read m b := by
  induction m with
  | nil => simp [Memory.erase]
  | cons c m ih =>
    simp only [Memory.erase, List.filter_cons] at ih ⊢
    split
    · rw [Memory.read_cons, ih, Memory.read_cons]
      split <;> simp_all
    · rw [ih, Memory.read_cons]
      split <;> simp_all

/-- What a read gives after a write, at every cell and for every list. -/
theorem Memory.read_write (m : Memory w) (a b : Nat) (v : BitVec w) :
    Memory.read (Memory.write m a v) b = if b = a then v else Memory.read m b := by
  unfold Memory.write
  split
  · rw [Memory.read_erase]; split <;> simp_all
  · rw [Memory.read_insert]

@[simp] theorem Memory.read_write_same (m : Memory w) (a : Nat) (v : BitVec w) :
    Memory.read (Memory.write m a v) a = v := by simp [Memory.read_write]

theorem Memory.read_write_other (m : Memory w) (a b : Nat) (v : BitVec w) (h : b ≠ a) :
    Memory.read (Memory.write m a v) b = Memory.read m b := by simp [Memory.read_write, h]

theorem Memory.mem_insert (m : Memory w) (a : Nat) (v : BitVec w) (c : Nat × BitVec w)
    (h : c ∈ Memory.insert m a v) : c = (a, v) ∨ c ∈ m := by
  induction m with
  | nil => simpa [Memory.insert] using h
  | cons d m ih =>
    simp only [Memory.insert] at h
    split at h
    · simpa using h
    · split at h
      · rcases List.mem_cons.1 h with h | h <;> simp_all
      · rcases List.mem_cons.1 h with h | h
        · simp [h]
        · rcases ih h with h | h <;> simp_all

theorem Memory.wf_erase (m : Memory w) (a : Nat) (h : Memory.wf m) : Memory.wf (Memory.erase m a) :=
  ⟨h.1.filter _, fun c hc => h.2 c (List.mem_filter.1 hc).1⟩

theorem Memory.wf_insert (m : Memory w) (a : Nat) (v : BitVec w) (hv : v ≠ 0#w) (h : Memory.wf m) :
    Memory.wf (Memory.insert m a v) := by
  refine ⟨?_, fun c hc => ?_⟩
  · obtain ⟨h, -⟩ := h
    induction m with
    | nil => simp [Memory.insert]
    | cons c m ih =>
      obtain ⟨hc, hm⟩ := List.pairwise_cons.1 h
      simp only [Memory.insert]
      split
      · refine List.pairwise_cons.2 ⟨fun d hd => ?_, h⟩
        rcases List.mem_cons.1 hd with rfl | hd
        · assumption
        · exact lt_trans ‹_› (hc d hd)
      · split
        · subst a; exact List.pairwise_cons.2 ⟨hc, hm⟩
        · refine List.pairwise_cons.2 ⟨fun d hd => ?_, ih hm⟩
          rcases Memory.mem_insert m a v d hd with rfl | hd
          · show c.1 < a; omega
          · exact hc d hd
  · rcases Memory.mem_insert m a v c hc with rfl | hc
    · exact hv
    · exact h.2 c hc

/-- A write keeps the canonical form. -/
theorem Memory.wf_write (m : Memory w) (a : Nat) (v : BitVec w) (h : Memory.wf m) : Memory.wf (Memory.write m a v) := by
  unfold Memory.write
  split
  · exact Memory.wf_erase m a h
  · exact Memory.wf_insert m a v ‹_› h

/-- A write inside a bound keeps every listed index inside it. -/
theorem Memory.below_write (m : Memory w) (a bound : Nat) (v : BitVec w) (ha : a < bound) (h : Memory.below m bound) :
    Memory.below (Memory.write m a v) bound := by
  intro c hc
  unfold Memory.write at hc
  split at hc
  · exact h c (List.mem_filter.1 hc).1
  · rcases Memory.mem_insert m a v c hc with rfl | hc
    · exact ha
    · exact h c hc

/-- Writing consecutive cells keeps the canonical form. -/
theorem Memory.wf_writeList (vs : List (BitVec w)) (m : Memory w) (a : Nat) (h : Memory.wf m) :
    Memory.wf (Memory.writeList m a vs) := by
  induction vs generalizing m a with
  | nil => exact h
  | cons v vs ih => exact ih _ _ (Memory.wf_write m a v h)

/-- Consecutive cells read back what was written, and every other cell what it held. -/
theorem Memory.read_writeList (vs : List (BitVec w)) (m : Memory w) (a b : Nat) :
    Memory.read (Memory.writeList m a vs) b =
      if a ≤ b ∧ b < a + vs.length then vs.getD (b - a) 0#w else Memory.read m b := by
  induction vs generalizing m a with
  | nil => simp [Memory.writeList]
  | cons v vs ih =>
    rw [Memory.writeList, ih, Memory.read_write]
    simp only [List.length_cons]
    by_cases hb : b = a
    · subst hb; simp
    · by_cases h : a + 1 ≤ b ∧ b < a + 1 + vs.length
      · have h' : a ≤ b ∧ b < a + (vs.length + 1) := by omega
        rw [if_pos h, if_pos h', show b - a = b - (a + 1) + 1 by omega, List.getD_cons_succ]
      · have h' : ¬ (a ≤ b ∧ b < a + (vs.length + 1)) := by omega
        rw [if_neg h, if_neg h', if_neg hb]

/-- Equal memories are equal lists: two canonical lists with the same reads are one list. -/
theorem Memory.eq_of_read_eq (m m' : Memory w) (h : Memory.wf m) (h' : Memory.wf m')
    (he : ∀ a, Memory.read m a = Memory.read m' a) : m = m' := by
  have head_ne : ∀ (c : Nat × BitVec w) (l l' : Memory w), Memory.wf (c :: l) →
      (∀ d ∈ l', c.1 < d.1) → Memory.read (c :: l) c.1 ≠ Memory.read l' c.1 := by
    intro c l l' hw hl
    rw [Memory.read_eq_unlisted_of_notMem l' c.1 fun d hd => (hl d hd).ne']
    simpa [Memory.read_cons] using hw.2 c (by simp)
  induction m generalizing m' with
  | nil =>
    cases m' with
    | nil => rfl
    | cons c l => exact absurd (he c.1).symm (head_ne c l [] h' (by simp))
  | cons c l ih =>
    obtain ⟨hc, hl⟩ := List.pairwise_cons.1 h.1
    cases m' with
    | nil => exact absurd (he c.1) (head_ne c l [] h (by simp))
    | cons d l' =>
      obtain ⟨hd, hl'⟩ := List.pairwise_cons.1 h'.1
      have key : c.1 = d.1 := by
        rcases Nat.lt_trichotomy c.1 d.1 with hlt | heq | hlt
        · refine absurd (he c.1) (head_ne c l (d :: l') h fun e hem => ?_)
          rcases List.mem_cons.1 hem with rfl | hem
          · exact hlt
          · exact lt_trans hlt (hd e hem)
        · exact heq
        · refine absurd (he d.1).symm (head_ne d l' (c :: l) h' fun e hem => ?_)
          rcases List.mem_cons.1 hem with rfl | hem
          · exact hlt
          · exact lt_trans hlt (hc e hem)
      have hv : c.2 = d.2 := by simpa [Memory.read_cons, key] using he c.1
      have htail : l = l' := by
        refine ih l' ⟨hl, fun e hem => h.2 e (by simp [hem])⟩ ⟨hl', fun e hem => h'.2 e (by simp [hem])⟩ fun a => ?_
        by_cases ha : a = c.1
        · subst ha
          rw [Memory.read_eq_unlisted_of_notMem l c.1 fun e hem => (hc e hem).ne',
            Memory.read_eq_unlisted_of_notMem l' c.1 fun e hem => by rw [key]; exact (hd e hem).ne']
        · simpa [Memory.read_cons, ha, show a ≠ d.1 from key ▸ ha] using he a
      rw [htail, show c = d from Prod.ext key hv]

@[simp] theorem Memory.wf_nil : Memory.wf ([] : Memory w) := ⟨List.Pairwise.nil, by simp⟩

@[simp] theorem Memory.below_nil (bound : Nat) : Memory.below ([] : Memory w) bound := by simp [Memory.below]

/-- The memories and the frontier slots of the reset state are in canonical form. -/
theorem State.reset_wf : Memory.wf State.reset.mem ∧ Memory.wf State.reset.prog ∧ Memory.wf Frontier.reset.slot := by decide

end Sys2Proof.Machine
end

