-- ==== Sys2Proof/Laws/State.lean ====
section
/-! SUPPORT. One lemma for each field of State under each named update, all true by rfl, so that no later proof unfolds a
record update. -/

namespace Sys2Proof.Machine

/-! ### writeR -/

@[simp] theorem State.writeR_r (s : State) (i : Fin 24) (v : Word) : (s.writeR i v).r = s.r.set i.val v := rfl
@[simp] theorem State.writeR_f (s : State) (i : Fin 24) (v : Word) : (s.writeR i v).f = s.f := rfl
@[simp] theorem State.writeR_vr (s : State) (i : Fin 24) (v : Word) : (s.writeR i v).vr = s.vr := rfl
@[simp] theorem State.writeR_vf (s : State) (i : Fin 24) (v : Word) : (s.writeR i v).vf = s.vf := rfl
@[simp] theorem State.writeR_pc (s : State) (i : Fin 24) (v : Word) : (s.writeR i v).pc = s.pc := rfl
@[simp] theorem State.writeR_flags (s : State) (i : Fin 24) (v : Word) : (s.writeR i v).flags = s.flags := rfl
@[simp] theorem State.writeR_isa (s : State) (i : Fin 24) (v : Word) : (s.writeR i v).isa = s.isa := rfl
@[simp] theorem State.writeR_a0 (s : State) (i : Fin 24) (v : Word) : (s.writeR i v).a0 = s.a0 := rfl
@[simp] theorem State.writeR_a1 (s : State) (i : Fin 24) (v : Word) : (s.writeR i v).a1 = s.a1 := rfl
@[simp] theorem State.writeR_a2 (s : State) (i : Fin 24) (v : Word) : (s.writeR i v).a2 = s.a2 := rfl
@[simp] theorem State.writeR_fa (s : State) (i : Fin 24) (v : Word) : (s.writeR i v).fa = s.fa := rfl
@[simp] theorem State.writeR_clock (s : State) (i : Fin 24) (v : Word) : (s.writeR i v).clock = s.clock := rfl
@[simp] theorem State.writeR_niter (s : State) (i : Fin 24) (v : Word) : (s.writeR i v).niter = s.niter := rfl
@[simp] theorem State.writeR_eiter (s : State) (i : Fin 24) (v : Word) : (s.writeR i v).eiter = s.eiter := rfl
@[simp] theorem State.writeR_q (s : State) (i : Fin 24) (v : Word) : (s.writeR i v).q = s.q := rfl
@[simp] theorem State.writeR_cur (s : State) (i : Fin 24) (v : Word) : (s.writeR i v).cur = s.cur := rfl
@[simp] theorem State.writeR_graph (s : State) (i : Fin 24) (v : Word) : (s.writeR i v).graph = s.graph := rfl
@[simp] theorem State.writeR_pstate (s : State) (i : Fin 24) (v : Word) : (s.writeR i v).pstate = s.pstate := rfl
@[simp] theorem State.writeR_errCause (s : State) (i : Fin 24) (v : Word) : (s.writeR i v).errCause = s.errCause := rfl
@[simp] theorem State.writeR_exitPc (s : State) (i : Fin 24) (v : Word) : (s.writeR i v).exitPc = s.exitPc := rfl
@[simp] theorem State.writeR_errWord (s : State) (i : Fin 24) (v : Word) : (s.writeR i v).errWord = s.errWord := rfl
@[simp] theorem State.writeR_prog (s : State) (i : Fin 24) (v : Word) : (s.writeR i v).prog = s.prog := rfl
@[simp] theorem State.writeR_mem (s : State) (i : Fin 24) (v : Word) : (s.writeR i v).mem = s.mem := rfl
@[simp] theorem State.writeR_hostAbort (s : State) (i : Fin 24) (v : Word) : (s.writeR i v).hostAbort = s.hostAbort := rfl

/-! ### writeF -/

@[simp] theorem State.writeF_r (s : State) (i : Fin 18) (v : Word) : (s.writeF i v).r = s.r := rfl
@[simp] theorem State.writeF_f (s : State) (i : Fin 18) (v : Word) : (s.writeF i v).f = s.f.set i.val v := rfl
@[simp] theorem State.writeF_vr (s : State) (i : Fin 18) (v : Word) : (s.writeF i v).vr = s.vr := rfl
@[simp] theorem State.writeF_vf (s : State) (i : Fin 18) (v : Word) : (s.writeF i v).vf = s.vf := rfl
@[simp] theorem State.writeF_pc (s : State) (i : Fin 18) (v : Word) : (s.writeF i v).pc = s.pc := rfl
@[simp] theorem State.writeF_flags (s : State) (i : Fin 18) (v : Word) : (s.writeF i v).flags = s.flags := rfl
@[simp] theorem State.writeF_isa (s : State) (i : Fin 18) (v : Word) : (s.writeF i v).isa = s.isa := rfl
@[simp] theorem State.writeF_a0 (s : State) (i : Fin 18) (v : Word) : (s.writeF i v).a0 = s.a0 := rfl
@[simp] theorem State.writeF_a1 (s : State) (i : Fin 18) (v : Word) : (s.writeF i v).a1 = s.a1 := rfl
@[simp] theorem State.writeF_a2 (s : State) (i : Fin 18) (v : Word) : (s.writeF i v).a2 = s.a2 := rfl
@[simp] theorem State.writeF_fa (s : State) (i : Fin 18) (v : Word) : (s.writeF i v).fa = s.fa := rfl
@[simp] theorem State.writeF_clock (s : State) (i : Fin 18) (v : Word) : (s.writeF i v).clock = s.clock := rfl
@[simp] theorem State.writeF_niter (s : State) (i : Fin 18) (v : Word) : (s.writeF i v).niter = s.niter := rfl
@[simp] theorem State.writeF_eiter (s : State) (i : Fin 18) (v : Word) : (s.writeF i v).eiter = s.eiter := rfl
@[simp] theorem State.writeF_q (s : State) (i : Fin 18) (v : Word) : (s.writeF i v).q = s.q := rfl
@[simp] theorem State.writeF_cur (s : State) (i : Fin 18) (v : Word) : (s.writeF i v).cur = s.cur := rfl
@[simp] theorem State.writeF_graph (s : State) (i : Fin 18) (v : Word) : (s.writeF i v).graph = s.graph := rfl
@[simp] theorem State.writeF_pstate (s : State) (i : Fin 18) (v : Word) : (s.writeF i v).pstate = s.pstate := rfl
@[simp] theorem State.writeF_errCause (s : State) (i : Fin 18) (v : Word) : (s.writeF i v).errCause = s.errCause := rfl
@[simp] theorem State.writeF_exitPc (s : State) (i : Fin 18) (v : Word) : (s.writeF i v).exitPc = s.exitPc := rfl
@[simp] theorem State.writeF_errWord (s : State) (i : Fin 18) (v : Word) : (s.writeF i v).errWord = s.errWord := rfl
@[simp] theorem State.writeF_prog (s : State) (i : Fin 18) (v : Word) : (s.writeF i v).prog = s.prog := rfl
@[simp] theorem State.writeF_mem (s : State) (i : Fin 18) (v : Word) : (s.writeF i v).mem = s.mem := rfl
@[simp] theorem State.writeF_hostAbort (s : State) (i : Fin 18) (v : Word) : (s.writeF i v).hostAbort = s.hostAbort := rfl

/-! ### writeVR -/

@[simp] theorem State.writeVR_r (s : State) (i : Fin 16) (v : Lanes) : (s.writeVR i v).r = s.r := rfl
@[simp] theorem State.writeVR_f (s : State) (i : Fin 16) (v : Lanes) : (s.writeVR i v).f = s.f := rfl
@[simp] theorem State.writeVR_vr (s : State) (i : Fin 16) (v : Lanes) : (s.writeVR i v).vr = s.vr.set i.val v := rfl
@[simp] theorem State.writeVR_vf (s : State) (i : Fin 16) (v : Lanes) : (s.writeVR i v).vf = s.vf := rfl
@[simp] theorem State.writeVR_pc (s : State) (i : Fin 16) (v : Lanes) : (s.writeVR i v).pc = s.pc := rfl
@[simp] theorem State.writeVR_flags (s : State) (i : Fin 16) (v : Lanes) : (s.writeVR i v).flags = s.flags := rfl
@[simp] theorem State.writeVR_isa (s : State) (i : Fin 16) (v : Lanes) : (s.writeVR i v).isa = s.isa := rfl
@[simp] theorem State.writeVR_a0 (s : State) (i : Fin 16) (v : Lanes) : (s.writeVR i v).a0 = s.a0 := rfl
@[simp] theorem State.writeVR_a1 (s : State) (i : Fin 16) (v : Lanes) : (s.writeVR i v).a1 = s.a1 := rfl
@[simp] theorem State.writeVR_a2 (s : State) (i : Fin 16) (v : Lanes) : (s.writeVR i v).a2 = s.a2 := rfl
@[simp] theorem State.writeVR_fa (s : State) (i : Fin 16) (v : Lanes) : (s.writeVR i v).fa = s.fa := rfl
@[simp] theorem State.writeVR_clock (s : State) (i : Fin 16) (v : Lanes) : (s.writeVR i v).clock = s.clock := rfl
@[simp] theorem State.writeVR_niter (s : State) (i : Fin 16) (v : Lanes) : (s.writeVR i v).niter = s.niter := rfl
@[simp] theorem State.writeVR_eiter (s : State) (i : Fin 16) (v : Lanes) : (s.writeVR i v).eiter = s.eiter := rfl
@[simp] theorem State.writeVR_q (s : State) (i : Fin 16) (v : Lanes) : (s.writeVR i v).q = s.q := rfl
@[simp] theorem State.writeVR_cur (s : State) (i : Fin 16) (v : Lanes) : (s.writeVR i v).cur = s.cur := rfl
@[simp] theorem State.writeVR_graph (s : State) (i : Fin 16) (v : Lanes) : (s.writeVR i v).graph = s.graph := rfl
@[simp] theorem State.writeVR_pstate (s : State) (i : Fin 16) (v : Lanes) : (s.writeVR i v).pstate = s.pstate := rfl
@[simp] theorem State.writeVR_errCause (s : State) (i : Fin 16) (v : Lanes) : (s.writeVR i v).errCause = s.errCause := rfl
@[simp] theorem State.writeVR_exitPc (s : State) (i : Fin 16) (v : Lanes) : (s.writeVR i v).exitPc = s.exitPc := rfl
@[simp] theorem State.writeVR_errWord (s : State) (i : Fin 16) (v : Lanes) : (s.writeVR i v).errWord = s.errWord := rfl
@[simp] theorem State.writeVR_prog (s : State) (i : Fin 16) (v : Lanes) : (s.writeVR i v).prog = s.prog := rfl
@[simp] theorem State.writeVR_mem (s : State) (i : Fin 16) (v : Lanes) : (s.writeVR i v).mem = s.mem := rfl
@[simp] theorem State.writeVR_hostAbort (s : State) (i : Fin 16) (v : Lanes) : (s.writeVR i v).hostAbort = s.hostAbort := rfl

/-! ### writeVF -/

@[simp] theorem State.writeVF_r (s : State) (i : Fin 16) (v : Lanes) : (s.writeVF i v).r = s.r := rfl
@[simp] theorem State.writeVF_f (s : State) (i : Fin 16) (v : Lanes) : (s.writeVF i v).f = s.f := rfl
@[simp] theorem State.writeVF_vr (s : State) (i : Fin 16) (v : Lanes) : (s.writeVF i v).vr = s.vr := rfl
@[simp] theorem State.writeVF_vf (s : State) (i : Fin 16) (v : Lanes) : (s.writeVF i v).vf = s.vf.set i.val v := rfl
@[simp] theorem State.writeVF_pc (s : State) (i : Fin 16) (v : Lanes) : (s.writeVF i v).pc = s.pc := rfl
@[simp] theorem State.writeVF_flags (s : State) (i : Fin 16) (v : Lanes) : (s.writeVF i v).flags = s.flags := rfl
@[simp] theorem State.writeVF_isa (s : State) (i : Fin 16) (v : Lanes) : (s.writeVF i v).isa = s.isa := rfl
@[simp] theorem State.writeVF_a0 (s : State) (i : Fin 16) (v : Lanes) : (s.writeVF i v).a0 = s.a0 := rfl
@[simp] theorem State.writeVF_a1 (s : State) (i : Fin 16) (v : Lanes) : (s.writeVF i v).a1 = s.a1 := rfl
@[simp] theorem State.writeVF_a2 (s : State) (i : Fin 16) (v : Lanes) : (s.writeVF i v).a2 = s.a2 := rfl
@[simp] theorem State.writeVF_fa (s : State) (i : Fin 16) (v : Lanes) : (s.writeVF i v).fa = s.fa := rfl
@[simp] theorem State.writeVF_clock (s : State) (i : Fin 16) (v : Lanes) : (s.writeVF i v).clock = s.clock := rfl
@[simp] theorem State.writeVF_niter (s : State) (i : Fin 16) (v : Lanes) : (s.writeVF i v).niter = s.niter := rfl
@[simp] theorem State.writeVF_eiter (s : State) (i : Fin 16) (v : Lanes) : (s.writeVF i v).eiter = s.eiter := rfl
@[simp] theorem State.writeVF_q (s : State) (i : Fin 16) (v : Lanes) : (s.writeVF i v).q = s.q := rfl
@[simp] theorem State.writeVF_cur (s : State) (i : Fin 16) (v : Lanes) : (s.writeVF i v).cur = s.cur := rfl
@[simp] theorem State.writeVF_graph (s : State) (i : Fin 16) (v : Lanes) : (s.writeVF i v).graph = s.graph := rfl
@[simp] theorem State.writeVF_pstate (s : State) (i : Fin 16) (v : Lanes) : (s.writeVF i v).pstate = s.pstate := rfl
@[simp] theorem State.writeVF_errCause (s : State) (i : Fin 16) (v : Lanes) : (s.writeVF i v).errCause = s.errCause := rfl
@[simp] theorem State.writeVF_exitPc (s : State) (i : Fin 16) (v : Lanes) : (s.writeVF i v).exitPc = s.exitPc := rfl
@[simp] theorem State.writeVF_errWord (s : State) (i : Fin 16) (v : Lanes) : (s.writeVF i v).errWord = s.errWord := rfl
@[simp] theorem State.writeVF_prog (s : State) (i : Fin 16) (v : Lanes) : (s.writeVF i v).prog = s.prog := rfl
@[simp] theorem State.writeVF_mem (s : State) (i : Fin 16) (v : Lanes) : (s.writeVF i v).mem = s.mem := rfl
@[simp] theorem State.writeVF_hostAbort (s : State) (i : Fin 16) (v : Lanes) : (s.writeVF i v).hostAbort = s.hostAbort := rfl

/-! ### setPc -/

@[simp] theorem State.setPc_r (s : State) (t : Word) : (s.setPc t).r = s.r := rfl
@[simp] theorem State.setPc_f (s : State) (t : Word) : (s.setPc t).f = s.f := rfl
@[simp] theorem State.setPc_vr (s : State) (t : Word) : (s.setPc t).vr = s.vr := rfl
@[simp] theorem State.setPc_vf (s : State) (t : Word) : (s.setPc t).vf = s.vf := rfl
@[simp] theorem State.setPc_pc (s : State) (t : Word) : (s.setPc t).pc = t := rfl
@[simp] theorem State.setPc_flags (s : State) (t : Word) : (s.setPc t).flags = s.flags := rfl
@[simp] theorem State.setPc_isa (s : State) (t : Word) : (s.setPc t).isa = s.isa := rfl
@[simp] theorem State.setPc_a0 (s : State) (t : Word) : (s.setPc t).a0 = s.a0 := rfl
@[simp] theorem State.setPc_a1 (s : State) (t : Word) : (s.setPc t).a1 = s.a1 := rfl
@[simp] theorem State.setPc_a2 (s : State) (t : Word) : (s.setPc t).a2 = s.a2 := rfl
@[simp] theorem State.setPc_fa (s : State) (t : Word) : (s.setPc t).fa = s.fa := rfl
@[simp] theorem State.setPc_clock (s : State) (t : Word) : (s.setPc t).clock = s.clock := rfl
@[simp] theorem State.setPc_niter (s : State) (t : Word) : (s.setPc t).niter = s.niter := rfl
@[simp] theorem State.setPc_eiter (s : State) (t : Word) : (s.setPc t).eiter = s.eiter := rfl
@[simp] theorem State.setPc_q (s : State) (t : Word) : (s.setPc t).q = s.q := rfl
@[simp] theorem State.setPc_cur (s : State) (t : Word) : (s.setPc t).cur = s.cur := rfl
@[simp] theorem State.setPc_graph (s : State) (t : Word) : (s.setPc t).graph = s.graph := rfl
@[simp] theorem State.setPc_pstate (s : State) (t : Word) : (s.setPc t).pstate = s.pstate := rfl
@[simp] theorem State.setPc_errCause (s : State) (t : Word) : (s.setPc t).errCause = s.errCause := rfl
@[simp] theorem State.setPc_exitPc (s : State) (t : Word) : (s.setPc t).exitPc = s.exitPc := rfl
@[simp] theorem State.setPc_errWord (s : State) (t : Word) : (s.setPc t).errWord = s.errWord := rfl
@[simp] theorem State.setPc_prog (s : State) (t : Word) : (s.setPc t).prog = s.prog := rfl
@[simp] theorem State.setPc_mem (s : State) (t : Word) : (s.setPc t).mem = s.mem := rfl
@[simp] theorem State.setPc_hostAbort (s : State) (t : Word) : (s.setPc t).hostAbort = s.hostAbort := rfl

/-! ### writeNiter -/

@[simp] theorem State.writeNiter_r (s : State) (i : Fin 4) (v : BitVec 32) : (s.writeNiter i v).r = s.r := rfl
@[simp] theorem State.writeNiter_f (s : State) (i : Fin 4) (v : BitVec 32) : (s.writeNiter i v).f = s.f := rfl
@[simp] theorem State.writeNiter_vr (s : State) (i : Fin 4) (v : BitVec 32) : (s.writeNiter i v).vr = s.vr := rfl
@[simp] theorem State.writeNiter_vf (s : State) (i : Fin 4) (v : BitVec 32) : (s.writeNiter i v).vf = s.vf := rfl
@[simp] theorem State.writeNiter_pc (s : State) (i : Fin 4) (v : BitVec 32) : (s.writeNiter i v).pc = s.pc := rfl
@[simp] theorem State.writeNiter_flags (s : State) (i : Fin 4) (v : BitVec 32) : (s.writeNiter i v).flags = s.flags := rfl
@[simp] theorem State.writeNiter_isa (s : State) (i : Fin 4) (v : BitVec 32) : (s.writeNiter i v).isa = s.isa := rfl
@[simp] theorem State.writeNiter_a0 (s : State) (i : Fin 4) (v : BitVec 32) : (s.writeNiter i v).a0 = s.a0 := rfl
@[simp] theorem State.writeNiter_a1 (s : State) (i : Fin 4) (v : BitVec 32) : (s.writeNiter i v).a1 = s.a1 := rfl
@[simp] theorem State.writeNiter_a2 (s : State) (i : Fin 4) (v : BitVec 32) : (s.writeNiter i v).a2 = s.a2 := rfl
@[simp] theorem State.writeNiter_fa (s : State) (i : Fin 4) (v : BitVec 32) : (s.writeNiter i v).fa = s.fa := rfl
@[simp] theorem State.writeNiter_clock (s : State) (i : Fin 4) (v : BitVec 32) : (s.writeNiter i v).clock = s.clock := rfl
@[simp] theorem State.writeNiter_niter (s : State) (i : Fin 4) (v : BitVec 32) : (s.writeNiter i v).niter = s.niter.set i.val v := rfl
@[simp] theorem State.writeNiter_eiter (s : State) (i : Fin 4) (v : BitVec 32) : (s.writeNiter i v).eiter = s.eiter := rfl
@[simp] theorem State.writeNiter_q (s : State) (i : Fin 4) (v : BitVec 32) : (s.writeNiter i v).q = s.q := rfl
@[simp] theorem State.writeNiter_cur (s : State) (i : Fin 4) (v : BitVec 32) : (s.writeNiter i v).cur = s.cur := rfl
@[simp] theorem State.writeNiter_graph (s : State) (i : Fin 4) (v : BitVec 32) : (s.writeNiter i v).graph = s.graph := rfl
@[simp] theorem State.writeNiter_pstate (s : State) (i : Fin 4) (v : BitVec 32) : (s.writeNiter i v).pstate = s.pstate := rfl
@[simp] theorem State.writeNiter_errCause (s : State) (i : Fin 4) (v : BitVec 32) : (s.writeNiter i v).errCause = s.errCause := rfl
@[simp] theorem State.writeNiter_exitPc (s : State) (i : Fin 4) (v : BitVec 32) : (s.writeNiter i v).exitPc = s.exitPc := rfl
@[simp] theorem State.writeNiter_errWord (s : State) (i : Fin 4) (v : BitVec 32) : (s.writeNiter i v).errWord = s.errWord := rfl
@[simp] theorem State.writeNiter_prog (s : State) (i : Fin 4) (v : BitVec 32) : (s.writeNiter i v).prog = s.prog := rfl
@[simp] theorem State.writeNiter_mem (s : State) (i : Fin 4) (v : BitVec 32) : (s.writeNiter i v).mem = s.mem := rfl
@[simp] theorem State.writeNiter_hostAbort (s : State) (i : Fin 4) (v : BitVec 32) : (s.writeNiter i v).hostAbort = s.hostAbort := rfl

/-! ### writeEiter -/

@[simp] theorem State.writeEiter_r (s : State) (v : BitVec 32) : (s.writeEiter v).r = s.r := rfl
@[simp] theorem State.writeEiter_f (s : State) (v : BitVec 32) : (s.writeEiter v).f = s.f := rfl
@[simp] theorem State.writeEiter_vr (s : State) (v : BitVec 32) : (s.writeEiter v).vr = s.vr := rfl
@[simp] theorem State.writeEiter_vf (s : State) (v : BitVec 32) : (s.writeEiter v).vf = s.vf := rfl
@[simp] theorem State.writeEiter_pc (s : State) (v : BitVec 32) : (s.writeEiter v).pc = s.pc := rfl
@[simp] theorem State.writeEiter_flags (s : State) (v : BitVec 32) : (s.writeEiter v).flags = s.flags := rfl
@[simp] theorem State.writeEiter_isa (s : State) (v : BitVec 32) : (s.writeEiter v).isa = s.isa := rfl
@[simp] theorem State.writeEiter_a0 (s : State) (v : BitVec 32) : (s.writeEiter v).a0 = s.a0 := rfl
@[simp] theorem State.writeEiter_a1 (s : State) (v : BitVec 32) : (s.writeEiter v).a1 = s.a1 := rfl
@[simp] theorem State.writeEiter_a2 (s : State) (v : BitVec 32) : (s.writeEiter v).a2 = s.a2 := rfl
@[simp] theorem State.writeEiter_fa (s : State) (v : BitVec 32) : (s.writeEiter v).fa = s.fa := rfl
@[simp] theorem State.writeEiter_clock (s : State) (v : BitVec 32) : (s.writeEiter v).clock = s.clock := rfl
@[simp] theorem State.writeEiter_niter (s : State) (v : BitVec 32) : (s.writeEiter v).niter = s.niter := rfl
@[simp] theorem State.writeEiter_eiter (s : State) (v : BitVec 32) : (s.writeEiter v).eiter = v := rfl
@[simp] theorem State.writeEiter_q (s : State) (v : BitVec 32) : (s.writeEiter v).q = s.q := rfl
@[simp] theorem State.writeEiter_cur (s : State) (v : BitVec 32) : (s.writeEiter v).cur = s.cur := rfl
@[simp] theorem State.writeEiter_graph (s : State) (v : BitVec 32) : (s.writeEiter v).graph = s.graph := rfl
@[simp] theorem State.writeEiter_pstate (s : State) (v : BitVec 32) : (s.writeEiter v).pstate = s.pstate := rfl
@[simp] theorem State.writeEiter_errCause (s : State) (v : BitVec 32) : (s.writeEiter v).errCause = s.errCause := rfl
@[simp] theorem State.writeEiter_exitPc (s : State) (v : BitVec 32) : (s.writeEiter v).exitPc = s.exitPc := rfl
@[simp] theorem State.writeEiter_errWord (s : State) (v : BitVec 32) : (s.writeEiter v).errWord = s.errWord := rfl
@[simp] theorem State.writeEiter_prog (s : State) (v : BitVec 32) : (s.writeEiter v).prog = s.prog := rfl
@[simp] theorem State.writeEiter_mem (s : State) (v : BitVec 32) : (s.writeEiter v).mem = s.mem := rfl
@[simp] theorem State.writeEiter_hostAbort (s : State) (v : BitVec 32) : (s.writeEiter v).hostAbort = s.hostAbort := rfl

/-! ### writeMem -/

@[simp] theorem State.writeMem_r (s : State) (a : Nat) (v : Word) : (s.writeMem a v).r = s.r := rfl
@[simp] theorem State.writeMem_f (s : State) (a : Nat) (v : Word) : (s.writeMem a v).f = s.f := rfl
@[simp] theorem State.writeMem_vr (s : State) (a : Nat) (v : Word) : (s.writeMem a v).vr = s.vr := rfl
@[simp] theorem State.writeMem_vf (s : State) (a : Nat) (v : Word) : (s.writeMem a v).vf = s.vf := rfl
@[simp] theorem State.writeMem_pc (s : State) (a : Nat) (v : Word) : (s.writeMem a v).pc = s.pc := rfl
@[simp] theorem State.writeMem_flags (s : State) (a : Nat) (v : Word) : (s.writeMem a v).flags = s.flags := rfl
@[simp] theorem State.writeMem_isa (s : State) (a : Nat) (v : Word) : (s.writeMem a v).isa = s.isa := rfl
@[simp] theorem State.writeMem_a0 (s : State) (a : Nat) (v : Word) : (s.writeMem a v).a0 = s.a0 := rfl
@[simp] theorem State.writeMem_a1 (s : State) (a : Nat) (v : Word) : (s.writeMem a v).a1 = s.a1 := rfl
@[simp] theorem State.writeMem_a2 (s : State) (a : Nat) (v : Word) : (s.writeMem a v).a2 = s.a2 := rfl
@[simp] theorem State.writeMem_fa (s : State) (a : Nat) (v : Word) : (s.writeMem a v).fa = s.fa := rfl
@[simp] theorem State.writeMem_clock (s : State) (a : Nat) (v : Word) : (s.writeMem a v).clock = s.clock := rfl
@[simp] theorem State.writeMem_niter (s : State) (a : Nat) (v : Word) : (s.writeMem a v).niter = s.niter := rfl
@[simp] theorem State.writeMem_eiter (s : State) (a : Nat) (v : Word) : (s.writeMem a v).eiter = s.eiter := rfl
@[simp] theorem State.writeMem_q (s : State) (a : Nat) (v : Word) : (s.writeMem a v).q = s.q := rfl
@[simp] theorem State.writeMem_cur (s : State) (a : Nat) (v : Word) : (s.writeMem a v).cur = s.cur := rfl
@[simp] theorem State.writeMem_graph (s : State) (a : Nat) (v : Word) : (s.writeMem a v).graph = s.graph := rfl
@[simp] theorem State.writeMem_pstate (s : State) (a : Nat) (v : Word) : (s.writeMem a v).pstate = s.pstate := rfl
@[simp] theorem State.writeMem_errCause (s : State) (a : Nat) (v : Word) : (s.writeMem a v).errCause = s.errCause := rfl
@[simp] theorem State.writeMem_exitPc (s : State) (a : Nat) (v : Word) : (s.writeMem a v).exitPc = s.exitPc := rfl
@[simp] theorem State.writeMem_errWord (s : State) (a : Nat) (v : Word) : (s.writeMem a v).errWord = s.errWord := rfl
@[simp] theorem State.writeMem_prog (s : State) (a : Nat) (v : Word) : (s.writeMem a v).prog = s.prog := rfl
@[simp] theorem State.writeMem_mem (s : State) (a : Nat) (v : Word) : (s.writeMem a v).mem = Memory.write s.mem a v := rfl
@[simp] theorem State.writeMem_hostAbort (s : State) (a : Nat) (v : Word) : (s.writeMem a v).hostAbort = s.hostAbort := rfl

/-! ### setCurrentQ -/

@[simp] theorem State.setCurrentQ_r (s : State) (q : Frontier) : (s.setCurrentQ q).r = s.r := rfl
@[simp] theorem State.setCurrentQ_f (s : State) (q : Frontier) : (s.setCurrentQ q).f = s.f := rfl
@[simp] theorem State.setCurrentQ_vr (s : State) (q : Frontier) : (s.setCurrentQ q).vr = s.vr := rfl
@[simp] theorem State.setCurrentQ_vf (s : State) (q : Frontier) : (s.setCurrentQ q).vf = s.vf := rfl
@[simp] theorem State.setCurrentQ_pc (s : State) (q : Frontier) : (s.setCurrentQ q).pc = s.pc := rfl
@[simp] theorem State.setCurrentQ_flags (s : State) (q : Frontier) : (s.setCurrentQ q).flags = s.flags := rfl
@[simp] theorem State.setCurrentQ_isa (s : State) (q : Frontier) : (s.setCurrentQ q).isa = s.isa := rfl
@[simp] theorem State.setCurrentQ_a0 (s : State) (q : Frontier) : (s.setCurrentQ q).a0 = s.a0 := rfl
@[simp] theorem State.setCurrentQ_a1 (s : State) (q : Frontier) : (s.setCurrentQ q).a1 = s.a1 := rfl
@[simp] theorem State.setCurrentQ_a2 (s : State) (q : Frontier) : (s.setCurrentQ q).a2 = s.a2 := rfl
@[simp] theorem State.setCurrentQ_fa (s : State) (q : Frontier) : (s.setCurrentQ q).fa = s.fa := rfl
@[simp] theorem State.setCurrentQ_clock (s : State) (q : Frontier) : (s.setCurrentQ q).clock = s.clock := rfl
@[simp] theorem State.setCurrentQ_niter (s : State) (q : Frontier) : (s.setCurrentQ q).niter = s.niter := rfl
@[simp] theorem State.setCurrentQ_eiter (s : State) (q : Frontier) : (s.setCurrentQ q).eiter = s.eiter := rfl
@[simp] theorem State.setCurrentQ_q (s : State) (q : Frontier) : (s.setCurrentQ q).q = s.q.set s.cur.val q := rfl
@[simp] theorem State.setCurrentQ_cur (s : State) (q : Frontier) : (s.setCurrentQ q).cur = s.cur := rfl
@[simp] theorem State.setCurrentQ_graph (s : State) (q : Frontier) : (s.setCurrentQ q).graph = s.graph := rfl
@[simp] theorem State.setCurrentQ_pstate (s : State) (q : Frontier) : (s.setCurrentQ q).pstate = s.pstate := rfl
@[simp] theorem State.setCurrentQ_errCause (s : State) (q : Frontier) : (s.setCurrentQ q).errCause = s.errCause := rfl
@[simp] theorem State.setCurrentQ_exitPc (s : State) (q : Frontier) : (s.setCurrentQ q).exitPc = s.exitPc := rfl
@[simp] theorem State.setCurrentQ_errWord (s : State) (q : Frontier) : (s.setCurrentQ q).errWord = s.errWord := rfl
@[simp] theorem State.setCurrentQ_prog (s : State) (q : Frontier) : (s.setCurrentQ q).prog = s.prog := rfl
@[simp] theorem State.setCurrentQ_mem (s : State) (q : Frontier) : (s.setCurrentQ q).mem = s.mem := rfl
@[simp] theorem State.setCurrentQ_hostAbort (s : State) (q : Frontier) : (s.setCurrentQ q).hostAbort = s.hostAbort := rfl

/-! ### setNextQ -/

@[simp] theorem State.setNextQ_r (s : State) (q : Frontier) : (s.setNextQ q).r = s.r := rfl
@[simp] theorem State.setNextQ_f (s : State) (q : Frontier) : (s.setNextQ q).f = s.f := rfl
@[simp] theorem State.setNextQ_vr (s : State) (q : Frontier) : (s.setNextQ q).vr = s.vr := rfl
@[simp] theorem State.setNextQ_vf (s : State) (q : Frontier) : (s.setNextQ q).vf = s.vf := rfl
@[simp] theorem State.setNextQ_pc (s : State) (q : Frontier) : (s.setNextQ q).pc = s.pc := rfl
@[simp] theorem State.setNextQ_flags (s : State) (q : Frontier) : (s.setNextQ q).flags = s.flags := rfl
@[simp] theorem State.setNextQ_isa (s : State) (q : Frontier) : (s.setNextQ q).isa = s.isa := rfl
@[simp] theorem State.setNextQ_a0 (s : State) (q : Frontier) : (s.setNextQ q).a0 = s.a0 := rfl
@[simp] theorem State.setNextQ_a1 (s : State) (q : Frontier) : (s.setNextQ q).a1 = s.a1 := rfl
@[simp] theorem State.setNextQ_a2 (s : State) (q : Frontier) : (s.setNextQ q).a2 = s.a2 := rfl
@[simp] theorem State.setNextQ_fa (s : State) (q : Frontier) : (s.setNextQ q).fa = s.fa := rfl
@[simp] theorem State.setNextQ_clock (s : State) (q : Frontier) : (s.setNextQ q).clock = s.clock := rfl
@[simp] theorem State.setNextQ_niter (s : State) (q : Frontier) : (s.setNextQ q).niter = s.niter := rfl
@[simp] theorem State.setNextQ_eiter (s : State) (q : Frontier) : (s.setNextQ q).eiter = s.eiter := rfl
@[simp] theorem State.setNextQ_q (s : State) (q : Frontier) : (s.setNextQ q).q = s.q.set (otherRole s.cur).val q := rfl
@[simp] theorem State.setNextQ_cur (s : State) (q : Frontier) : (s.setNextQ q).cur = s.cur := rfl
@[simp] theorem State.setNextQ_graph (s : State) (q : Frontier) : (s.setNextQ q).graph = s.graph := rfl
@[simp] theorem State.setNextQ_pstate (s : State) (q : Frontier) : (s.setNextQ q).pstate = s.pstate := rfl
@[simp] theorem State.setNextQ_errCause (s : State) (q : Frontier) : (s.setNextQ q).errCause = s.errCause := rfl
@[simp] theorem State.setNextQ_exitPc (s : State) (q : Frontier) : (s.setNextQ q).exitPc = s.exitPc := rfl
@[simp] theorem State.setNextQ_errWord (s : State) (q : Frontier) : (s.setNextQ q).errWord = s.errWord := rfl
@[simp] theorem State.setNextQ_prog (s : State) (q : Frontier) : (s.setNextQ q).prog = s.prog := rfl
@[simp] theorem State.setNextQ_mem (s : State) (q : Frontier) : (s.setNextQ q).mem = s.mem := rfl
@[simp] theorem State.setNextQ_hostAbort (s : State) (q : Frontier) : (s.setNextQ q).hostAbort = s.hostAbort := rfl

/-! ### swapRoles -/

@[simp] theorem State.swapRoles_r (s : State) : s.swapRoles.r = s.r := rfl
@[simp] theorem State.swapRoles_f (s : State) : s.swapRoles.f = s.f := rfl
@[simp] theorem State.swapRoles_vr (s : State) : s.swapRoles.vr = s.vr := rfl
@[simp] theorem State.swapRoles_vf (s : State) : s.swapRoles.vf = s.vf := rfl
@[simp] theorem State.swapRoles_pc (s : State) : s.swapRoles.pc = s.pc := rfl
@[simp] theorem State.swapRoles_flags (s : State) : s.swapRoles.flags = s.flags := rfl
@[simp] theorem State.swapRoles_isa (s : State) : s.swapRoles.isa = s.isa := rfl
@[simp] theorem State.swapRoles_a0 (s : State) : s.swapRoles.a0 = s.a0 := rfl
@[simp] theorem State.swapRoles_a1 (s : State) : s.swapRoles.a1 = s.a1 := rfl
@[simp] theorem State.swapRoles_a2 (s : State) : s.swapRoles.a2 = s.a2 := rfl
@[simp] theorem State.swapRoles_fa (s : State) : s.swapRoles.fa = s.fa := rfl
@[simp] theorem State.swapRoles_clock (s : State) : s.swapRoles.clock = s.clock := rfl
@[simp] theorem State.swapRoles_niter (s : State) : s.swapRoles.niter = s.niter := rfl
@[simp] theorem State.swapRoles_eiter (s : State) : s.swapRoles.eiter = s.eiter := rfl
@[simp] theorem State.swapRoles_q (s : State) : s.swapRoles.q = s.q.set s.cur.val (s.currentQ.init s.currentQ.kind) := rfl
@[simp] theorem State.swapRoles_cur (s : State) : s.swapRoles.cur = otherRole s.cur := rfl
@[simp] theorem State.swapRoles_graph (s : State) : s.swapRoles.graph = s.graph := rfl
@[simp] theorem State.swapRoles_pstate (s : State) : s.swapRoles.pstate = s.pstate := rfl
@[simp] theorem State.swapRoles_errCause (s : State) : s.swapRoles.errCause = s.errCause := rfl
@[simp] theorem State.swapRoles_exitPc (s : State) : s.swapRoles.exitPc = s.exitPc := rfl
@[simp] theorem State.swapRoles_errWord (s : State) : s.swapRoles.errWord = s.errWord := rfl
@[simp] theorem State.swapRoles_prog (s : State) : s.swapRoles.prog = s.prog := rfl
@[simp] theorem State.swapRoles_mem (s : State) : s.swapRoles.mem = s.mem := rfl
@[simp] theorem State.swapRoles_hostAbort (s : State) : s.swapRoles.hostAbort = s.hostAbort := rfl

/-! ### setZ -/

@[simp] theorem State.setZ_r (s : State) (z : Bool) : (s.setZ z).r = s.r := rfl
@[simp] theorem State.setZ_f (s : State) (z : Bool) : (s.setZ z).f = s.f := rfl
@[simp] theorem State.setZ_vr (s : State) (z : Bool) : (s.setZ z).vr = s.vr := rfl
@[simp] theorem State.setZ_vf (s : State) (z : Bool) : (s.setZ z).vf = s.vf := rfl
@[simp] theorem State.setZ_pc (s : State) (z : Bool) : (s.setZ z).pc = s.pc := rfl
@[simp] theorem State.setZ_flags (s : State) (z : Bool) : (s.setZ z).flags = (if z then s.flags ||| 0x01#8 else s.flags &&& 0xFE#8) := rfl
@[simp] theorem State.setZ_isa (s : State) (z : Bool) : (s.setZ z).isa = s.isa := rfl
@[simp] theorem State.setZ_a0 (s : State) (z : Bool) : (s.setZ z).a0 = s.a0 := rfl
@[simp] theorem State.setZ_a1 (s : State) (z : Bool) : (s.setZ z).a1 = s.a1 := rfl
@[simp] theorem State.setZ_a2 (s : State) (z : Bool) : (s.setZ z).a2 = s.a2 := rfl
@[simp] theorem State.setZ_fa (s : State) (z : Bool) : (s.setZ z).fa = s.fa := rfl
@[simp] theorem State.setZ_clock (s : State) (z : Bool) : (s.setZ z).clock = s.clock := rfl
@[simp] theorem State.setZ_niter (s : State) (z : Bool) : (s.setZ z).niter = s.niter := rfl
@[simp] theorem State.setZ_eiter (s : State) (z : Bool) : (s.setZ z).eiter = s.eiter := rfl
@[simp] theorem State.setZ_q (s : State) (z : Bool) : (s.setZ z).q = s.q := rfl
@[simp] theorem State.setZ_cur (s : State) (z : Bool) : (s.setZ z).cur = s.cur := rfl
@[simp] theorem State.setZ_graph (s : State) (z : Bool) : (s.setZ z).graph = s.graph := rfl
@[simp] theorem State.setZ_pstate (s : State) (z : Bool) : (s.setZ z).pstate = s.pstate := rfl
@[simp] theorem State.setZ_errCause (s : State) (z : Bool) : (s.setZ z).errCause = s.errCause := rfl
@[simp] theorem State.setZ_exitPc (s : State) (z : Bool) : (s.setZ z).exitPc = s.exitPc := rfl
@[simp] theorem State.setZ_errWord (s : State) (z : Bool) : (s.setZ z).errWord = s.errWord := rfl
@[simp] theorem State.setZ_prog (s : State) (z : Bool) : (s.setZ z).prog = s.prog := rfl
@[simp] theorem State.setZ_mem (s : State) (z : Bool) : (s.setZ z).mem = s.mem := rfl
@[simp] theorem State.setZ_hostAbort (s : State) (z : Bool) : (s.setZ z).hostAbort = s.hostAbort := rfl

/-! ### setFlags -/

@[simp] theorem State.setFlags_r (s : State) (v : BitVec 8) : (s.setFlags v).r = s.r := rfl
@[simp] theorem State.setFlags_f (s : State) (v : BitVec 8) : (s.setFlags v).f = s.f := rfl
@[simp] theorem State.setFlags_vr (s : State) (v : BitVec 8) : (s.setFlags v).vr = s.vr := rfl
@[simp] theorem State.setFlags_vf (s : State) (v : BitVec 8) : (s.setFlags v).vf = s.vf := rfl
@[simp] theorem State.setFlags_pc (s : State) (v : BitVec 8) : (s.setFlags v).pc = s.pc := rfl
@[simp] theorem State.setFlags_flags (s : State) (v : BitVec 8) : (s.setFlags v).flags = v := rfl
@[simp] theorem State.setFlags_isa (s : State) (v : BitVec 8) : (s.setFlags v).isa = s.isa := rfl
@[simp] theorem State.setFlags_a0 (s : State) (v : BitVec 8) : (s.setFlags v).a0 = s.a0 := rfl
@[simp] theorem State.setFlags_a1 (s : State) (v : BitVec 8) : (s.setFlags v).a1 = s.a1 := rfl
@[simp] theorem State.setFlags_a2 (s : State) (v : BitVec 8) : (s.setFlags v).a2 = s.a2 := rfl
@[simp] theorem State.setFlags_fa (s : State) (v : BitVec 8) : (s.setFlags v).fa = s.fa := rfl
@[simp] theorem State.setFlags_clock (s : State) (v : BitVec 8) : (s.setFlags v).clock = s.clock := rfl
@[simp] theorem State.setFlags_niter (s : State) (v : BitVec 8) : (s.setFlags v).niter = s.niter := rfl
@[simp] theorem State.setFlags_eiter (s : State) (v : BitVec 8) : (s.setFlags v).eiter = s.eiter := rfl
@[simp] theorem State.setFlags_q (s : State) (v : BitVec 8) : (s.setFlags v).q = s.q := rfl
@[simp] theorem State.setFlags_cur (s : State) (v : BitVec 8) : (s.setFlags v).cur = s.cur := rfl
@[simp] theorem State.setFlags_graph (s : State) (v : BitVec 8) : (s.setFlags v).graph = s.graph := rfl
@[simp] theorem State.setFlags_pstate (s : State) (v : BitVec 8) : (s.setFlags v).pstate = s.pstate := rfl
@[simp] theorem State.setFlags_errCause (s : State) (v : BitVec 8) : (s.setFlags v).errCause = s.errCause := rfl
@[simp] theorem State.setFlags_exitPc (s : State) (v : BitVec 8) : (s.setFlags v).exitPc = s.exitPc := rfl
@[simp] theorem State.setFlags_errWord (s : State) (v : BitVec 8) : (s.setFlags v).errWord = s.errWord := rfl
@[simp] theorem State.setFlags_prog (s : State) (v : BitVec 8) : (s.setFlags v).prog = s.prog := rfl
@[simp] theorem State.setFlags_mem (s : State) (v : BitVec 8) : (s.setFlags v).mem = s.mem := rfl
@[simp] theorem State.setFlags_hostAbort (s : State) (v : BitVec 8) : (s.setFlags v).hostAbort = s.hostAbort := rfl

/-! ### stop -/

@[simp] theorem State.stop_r (s : State) (p : PState) (c : Cause) (x : Word) : (s.stop p c x).r = s.r := rfl
@[simp] theorem State.stop_f (s : State) (p : PState) (c : Cause) (x : Word) : (s.stop p c x).f = s.f := rfl
@[simp] theorem State.stop_vr (s : State) (p : PState) (c : Cause) (x : Word) : (s.stop p c x).vr = s.vr := rfl
@[simp] theorem State.stop_vf (s : State) (p : PState) (c : Cause) (x : Word) : (s.stop p c x).vf = s.vf := rfl
@[simp] theorem State.stop_pc (s : State) (p : PState) (c : Cause) (x : Word) : (s.stop p c x).pc = s.pc := rfl
@[simp] theorem State.stop_flags (s : State) (p : PState) (c : Cause) (x : Word) : (s.stop p c x).flags = s.flags := rfl
@[simp] theorem State.stop_isa (s : State) (p : PState) (c : Cause) (x : Word) : (s.stop p c x).isa = s.isa := rfl
@[simp] theorem State.stop_a0 (s : State) (p : PState) (c : Cause) (x : Word) : (s.stop p c x).a0 = s.a0 := rfl
@[simp] theorem State.stop_a1 (s : State) (p : PState) (c : Cause) (x : Word) : (s.stop p c x).a1 = s.a1 := rfl
@[simp] theorem State.stop_a2 (s : State) (p : PState) (c : Cause) (x : Word) : (s.stop p c x).a2 = s.a2 := rfl
@[simp] theorem State.stop_fa (s : State) (p : PState) (c : Cause) (x : Word) : (s.stop p c x).fa = s.fa := rfl
@[simp] theorem State.stop_clock (s : State) (p : PState) (c : Cause) (x : Word) : (s.stop p c x).clock = s.clock := rfl
@[simp] theorem State.stop_niter (s : State) (p : PState) (c : Cause) (x : Word) : (s.stop p c x).niter = s.niter := rfl
@[simp] theorem State.stop_eiter (s : State) (p : PState) (c : Cause) (x : Word) : (s.stop p c x).eiter = s.eiter := rfl
@[simp] theorem State.stop_q (s : State) (p : PState) (c : Cause) (x : Word) : (s.stop p c x).q = s.q := rfl
@[simp] theorem State.stop_cur (s : State) (p : PState) (c : Cause) (x : Word) : (s.stop p c x).cur = s.cur := rfl
@[simp] theorem State.stop_graph (s : State) (p : PState) (c : Cause) (x : Word) : (s.stop p c x).graph = s.graph := rfl
@[simp] theorem State.stop_pstate (s : State) (p : PState) (c : Cause) (x : Word) : (s.stop p c x).pstate = p := rfl
@[simp] theorem State.stop_errCause (s : State) (p : PState) (c : Cause) (x : Word) : (s.stop p c x).errCause = c.code := rfl
@[simp] theorem State.stop_exitPc (s : State) (p : PState) (c : Cause) (x : Word) : (s.stop p c x).exitPc = x := rfl
@[simp] theorem State.stop_errWord (s : State) (p : PState) (c : Cause) (x : Word) : (s.stop p c x).errWord = s.errWord := rfl
@[simp] theorem State.stop_prog (s : State) (p : PState) (c : Cause) (x : Word) : (s.stop p c x).prog = s.prog := rfl
@[simp] theorem State.stop_mem (s : State) (p : PState) (c : Cause) (x : Word) : (s.stop p c x).mem = s.mem := rfl
@[simp] theorem State.stop_hostAbort (s : State) (p : PState) (c : Cause) (x : Word) : (s.stop p c x).hostAbort = s.hostAbort := rfl

/-! ### raise -/

@[simp] theorem State.raise_r (s : State) (c : Cause) : (s.raise c).r = s.r := rfl
@[simp] theorem State.raise_f (s : State) (c : Cause) : (s.raise c).f = s.f := rfl
@[simp] theorem State.raise_vr (s : State) (c : Cause) : (s.raise c).vr = s.vr := rfl
@[simp] theorem State.raise_vf (s : State) (c : Cause) : (s.raise c).vf = s.vf := rfl
@[simp] theorem State.raise_pc (s : State) (c : Cause) : (s.raise c).pc = s.pc := rfl
@[simp] theorem State.raise_flags (s : State) (c : Cause) : (s.raise c).flags = s.flags := rfl
@[simp] theorem State.raise_isa (s : State) (c : Cause) : (s.raise c).isa = s.isa := rfl
@[simp] theorem State.raise_a0 (s : State) (c : Cause) : (s.raise c).a0 = s.a0 := rfl
@[simp] theorem State.raise_a1 (s : State) (c : Cause) : (s.raise c).a1 = s.a1 := rfl
@[simp] theorem State.raise_a2 (s : State) (c : Cause) : (s.raise c).a2 = s.a2 := rfl
@[simp] theorem State.raise_fa (s : State) (c : Cause) : (s.raise c).fa = s.fa := rfl
@[simp] theorem State.raise_clock (s : State) (c : Cause) : (s.raise c).clock = s.clock := rfl
@[simp] theorem State.raise_niter (s : State) (c : Cause) : (s.raise c).niter = s.niter := rfl
@[simp] theorem State.raise_eiter (s : State) (c : Cause) : (s.raise c).eiter = s.eiter := rfl
@[simp] theorem State.raise_q (s : State) (c : Cause) : (s.raise c).q = s.q := rfl
@[simp] theorem State.raise_cur (s : State) (c : Cause) : (s.raise c).cur = s.cur := rfl
@[simp] theorem State.raise_graph (s : State) (c : Cause) : (s.raise c).graph = s.graph := rfl
@[simp] theorem State.raise_pstate (s : State) (c : Cause) : (s.raise c).pstate = .errored := rfl
@[simp] theorem State.raise_errCause (s : State) (c : Cause) : (s.raise c).errCause = c.code := rfl
@[simp] theorem State.raise_exitPc (s : State) (c : Cause) : (s.raise c).exitPc = s.pc - 1 := rfl
@[simp] theorem State.raise_errWord (s : State) (c : Cause) : (s.raise c).errWord = s.errWord := rfl
@[simp] theorem State.raise_prog (s : State) (c : Cause) : (s.raise c).prog = s.prog := rfl
@[simp] theorem State.raise_mem (s : State) (c : Cause) : (s.raise c).mem = s.mem := rfl
@[simp] theorem State.raise_hostAbort (s : State) (c : Cause) : (s.raise c).hostAbort = s.hostAbort := rfl

/-! ### halt -/

@[simp] theorem State.halt_r (s : State) : s.halt.r = s.r := rfl
@[simp] theorem State.halt_f (s : State) : s.halt.f = s.f := rfl
@[simp] theorem State.halt_vr (s : State) : s.halt.vr = s.vr := rfl
@[simp] theorem State.halt_vf (s : State) : s.halt.vf = s.vf := rfl
@[simp] theorem State.halt_pc (s : State) : s.halt.pc = s.pc := rfl
@[simp] theorem State.halt_flags (s : State) : s.halt.flags = s.flags := rfl
@[simp] theorem State.halt_isa (s : State) : s.halt.isa = s.isa := rfl
@[simp] theorem State.halt_a0 (s : State) : s.halt.a0 = s.a0 := rfl
@[simp] theorem State.halt_a1 (s : State) : s.halt.a1 = s.a1 := rfl
@[simp] theorem State.halt_a2 (s : State) : s.halt.a2 = s.a2 := rfl
@[simp] theorem State.halt_fa (s : State) : s.halt.fa = s.fa := rfl
@[simp] theorem State.halt_clock (s : State) : s.halt.clock = s.clock := rfl
@[simp] theorem State.halt_niter (s : State) : s.halt.niter = s.niter := rfl
@[simp] theorem State.halt_eiter (s : State) : s.halt.eiter = s.eiter := rfl
@[simp] theorem State.halt_q (s : State) : s.halt.q = s.q := rfl
@[simp] theorem State.halt_cur (s : State) : s.halt.cur = s.cur := rfl
@[simp] theorem State.halt_graph (s : State) : s.halt.graph = s.graph := rfl
@[simp] theorem State.halt_pstate (s : State) : s.halt.pstate = .halted := rfl
@[simp] theorem State.halt_errCause (s : State) : s.halt.errCause = 0 := rfl
@[simp] theorem State.halt_exitPc (s : State) : s.halt.exitPc = s.pc - 1 := rfl
@[simp] theorem State.halt_errWord (s : State) : s.halt.errWord = s.errWord := rfl
@[simp] theorem State.halt_prog (s : State) : s.halt.prog = s.prog := rfl
@[simp] theorem State.halt_mem (s : State) : s.halt.mem = s.mem := rfl
@[simp] theorem State.halt_hostAbort (s : State) : s.halt.hostAbort = s.hostAbort := rfl

/-! ### advancePc -/

@[simp] theorem State.advancePc_r (s : State) : s.advancePc.r = s.r := rfl
@[simp] theorem State.advancePc_f (s : State) : s.advancePc.f = s.f := rfl
@[simp] theorem State.advancePc_vr (s : State) : s.advancePc.vr = s.vr := rfl
@[simp] theorem State.advancePc_vf (s : State) : s.advancePc.vf = s.vf := rfl
@[simp] theorem State.advancePc_pc (s : State) : s.advancePc.pc = s.pc + 1 := rfl
@[simp] theorem State.advancePc_flags (s : State) : s.advancePc.flags = s.flags := rfl
@[simp] theorem State.advancePc_isa (s : State) : s.advancePc.isa = s.isa := rfl
@[simp] theorem State.advancePc_a0 (s : State) : s.advancePc.a0 = s.a0 := rfl
@[simp] theorem State.advancePc_a1 (s : State) : s.advancePc.a1 = s.a1 := rfl
@[simp] theorem State.advancePc_a2 (s : State) : s.advancePc.a2 = s.a2 := rfl
@[simp] theorem State.advancePc_fa (s : State) : s.advancePc.fa = s.fa := rfl
@[simp] theorem State.advancePc_clock (s : State) : s.advancePc.clock = s.clock := rfl
@[simp] theorem State.advancePc_niter (s : State) : s.advancePc.niter = s.niter := rfl
@[simp] theorem State.advancePc_eiter (s : State) : s.advancePc.eiter = s.eiter := rfl
@[simp] theorem State.advancePc_q (s : State) : s.advancePc.q = s.q := rfl
@[simp] theorem State.advancePc_cur (s : State) : s.advancePc.cur = s.cur := rfl
@[simp] theorem State.advancePc_graph (s : State) : s.advancePc.graph = s.graph := rfl
@[simp] theorem State.advancePc_pstate (s : State) : s.advancePc.pstate = s.pstate := rfl
@[simp] theorem State.advancePc_errCause (s : State) : s.advancePc.errCause = s.errCause := rfl
@[simp] theorem State.advancePc_exitPc (s : State) : s.advancePc.exitPc = s.exitPc := rfl
@[simp] theorem State.advancePc_errWord (s : State) : s.advancePc.errWord = s.errWord := rfl
@[simp] theorem State.advancePc_prog (s : State) : s.advancePc.prog = s.prog := rfl
@[simp] theorem State.advancePc_mem (s : State) : s.advancePc.mem = s.mem := rfl
@[simp] theorem State.advancePc_hostAbort (s : State) : s.advancePc.hostAbort = s.hostAbort := rfl

/-! ### recordWord -/

@[simp] theorem State.recordWord_r (s : State) (w : ProgWord) : (s.recordWord w).r = s.r := rfl
@[simp] theorem State.recordWord_f (s : State) (w : ProgWord) : (s.recordWord w).f = s.f := rfl
@[simp] theorem State.recordWord_vr (s : State) (w : ProgWord) : (s.recordWord w).vr = s.vr := rfl
@[simp] theorem State.recordWord_vf (s : State) (w : ProgWord) : (s.recordWord w).vf = s.vf := rfl
@[simp] theorem State.recordWord_pc (s : State) (w : ProgWord) : (s.recordWord w).pc = s.pc := rfl
@[simp] theorem State.recordWord_flags (s : State) (w : ProgWord) : (s.recordWord w).flags = s.flags := rfl
@[simp] theorem State.recordWord_isa (s : State) (w : ProgWord) : (s.recordWord w).isa = s.isa := rfl
@[simp] theorem State.recordWord_a0 (s : State) (w : ProgWord) : (s.recordWord w).a0 = s.a0 := rfl
@[simp] theorem State.recordWord_a1 (s : State) (w : ProgWord) : (s.recordWord w).a1 = s.a1 := rfl
@[simp] theorem State.recordWord_a2 (s : State) (w : ProgWord) : (s.recordWord w).a2 = s.a2 := rfl
@[simp] theorem State.recordWord_fa (s : State) (w : ProgWord) : (s.recordWord w).fa = s.fa := rfl
@[simp] theorem State.recordWord_clock (s : State) (w : ProgWord) : (s.recordWord w).clock = s.clock := rfl
@[simp] theorem State.recordWord_niter (s : State) (w : ProgWord) : (s.recordWord w).niter = s.niter := rfl
@[simp] theorem State.recordWord_eiter (s : State) (w : ProgWord) : (s.recordWord w).eiter = s.eiter := rfl
@[simp] theorem State.recordWord_q (s : State) (w : ProgWord) : (s.recordWord w).q = s.q := rfl
@[simp] theorem State.recordWord_cur (s : State) (w : ProgWord) : (s.recordWord w).cur = s.cur := rfl
@[simp] theorem State.recordWord_graph (s : State) (w : ProgWord) : (s.recordWord w).graph = s.graph := rfl
@[simp] theorem State.recordWord_pstate (s : State) (w : ProgWord) : (s.recordWord w).pstate = s.pstate := rfl
@[simp] theorem State.recordWord_errCause (s : State) (w : ProgWord) : (s.recordWord w).errCause = s.errCause := rfl
@[simp] theorem State.recordWord_exitPc (s : State) (w : ProgWord) : (s.recordWord w).exitPc = s.exitPc := rfl
@[simp] theorem State.recordWord_errWord (s : State) (w : ProgWord) : (s.recordWord w).errWord = w := rfl
@[simp] theorem State.recordWord_prog (s : State) (w : ProgWord) : (s.recordWord w).prog = s.prog := rfl
@[simp] theorem State.recordWord_mem (s : State) (w : ProgWord) : (s.recordWord w).mem = s.mem := rfl
@[simp] theorem State.recordWord_hostAbort (s : State) (w : ProgWord) : (s.recordWord w).hostAbort = s.hostAbort := rfl

/-! ### countClock -/

@[simp] theorem State.countClock_r (s : State) : s.countClock.r = s.r := rfl
@[simp] theorem State.countClock_f (s : State) : s.countClock.f = s.f := rfl
@[simp] theorem State.countClock_vr (s : State) : s.countClock.vr = s.vr := rfl
@[simp] theorem State.countClock_vf (s : State) : s.countClock.vf = s.vf := rfl
@[simp] theorem State.countClock_pc (s : State) : s.countClock.pc = s.pc := rfl
@[simp] theorem State.countClock_flags (s : State) : s.countClock.flags = s.flags := rfl
@[simp] theorem State.countClock_isa (s : State) : s.countClock.isa = s.isa := rfl
@[simp] theorem State.countClock_a0 (s : State) : s.countClock.a0 = s.a0 := rfl
@[simp] theorem State.countClock_a1 (s : State) : s.countClock.a1 = s.a1 := rfl
@[simp] theorem State.countClock_a2 (s : State) : s.countClock.a2 = s.a2 := rfl
@[simp] theorem State.countClock_fa (s : State) : s.countClock.fa = s.fa := rfl
@[simp] theorem State.countClock_clock (s : State) : s.countClock.clock = s.clock + 1 := rfl
@[simp] theorem State.countClock_niter (s : State) : s.countClock.niter = s.niter := rfl
@[simp] theorem State.countClock_eiter (s : State) : s.countClock.eiter = s.eiter := rfl
@[simp] theorem State.countClock_q (s : State) : s.countClock.q = s.q := rfl
@[simp] theorem State.countClock_cur (s : State) : s.countClock.cur = s.cur := rfl
@[simp] theorem State.countClock_graph (s : State) : s.countClock.graph = s.graph := rfl
@[simp] theorem State.countClock_pstate (s : State) : s.countClock.pstate = s.pstate := rfl
@[simp] theorem State.countClock_errCause (s : State) : s.countClock.errCause = s.errCause := rfl
@[simp] theorem State.countClock_exitPc (s : State) : s.countClock.exitPc = s.exitPc := rfl
@[simp] theorem State.countClock_errWord (s : State) : s.countClock.errWord = s.errWord := rfl
@[simp] theorem State.countClock_prog (s : State) : s.countClock.prog = s.prog := rfl
@[simp] theorem State.countClock_mem (s : State) : s.countClock.mem = s.mem := rfl
@[simp] theorem State.countClock_hostAbort (s : State) : s.countClock.hostAbort = s.hostAbort := rfl

/-! ### latchDecoded -/

@[simp] theorem State.latchDecoded_r (s : State) (w : ProgWord) : (s.latchDecoded w).r = s.r := rfl
@[simp] theorem State.latchDecoded_f (s : State) (w : ProgWord) : (s.latchDecoded w).f = s.f := rfl
@[simp] theorem State.latchDecoded_vr (s : State) (w : ProgWord) : (s.latchDecoded w).vr = s.vr := rfl
@[simp] theorem State.latchDecoded_vf (s : State) (w : ProgWord) : (s.latchDecoded w).vf = s.vf := rfl
@[simp] theorem State.latchDecoded_pc (s : State) (w : ProgWord) : (s.latchDecoded w).pc = s.pc := rfl
@[simp] theorem State.latchDecoded_flags (s : State) (w : ProgWord) : (s.latchDecoded w).flags = s.flags := rfl
@[simp] theorem State.latchDecoded_isa (s : State) (w : ProgWord) : (s.latchDecoded w).isa = (fieldsOf w).op := rfl
@[simp] theorem State.latchDecoded_a0 (s : State) (w : ProgWord) : (s.latchDecoded w).a0 = (fieldsOf w).a0 := rfl
@[simp] theorem State.latchDecoded_a1 (s : State) (w : ProgWord) : (s.latchDecoded w).a1 = (fieldsOf w).a1 := rfl
@[simp] theorem State.latchDecoded_a2 (s : State) (w : ProgWord) : (s.latchDecoded w).a2 = (fieldsOf w).a2 := rfl
@[simp] theorem State.latchDecoded_fa (s : State) (w : ProgWord) : (s.latchDecoded w).fa = (if (fieldsOf w).immediate && (fieldsOf w).floating then (fieldsOf w).a2 else s.fa) := rfl
@[simp] theorem State.latchDecoded_clock (s : State) (w : ProgWord) : (s.latchDecoded w).clock = s.clock := rfl
@[simp] theorem State.latchDecoded_niter (s : State) (w : ProgWord) : (s.latchDecoded w).niter = s.niter := rfl
@[simp] theorem State.latchDecoded_eiter (s : State) (w : ProgWord) : (s.latchDecoded w).eiter = s.eiter := rfl
@[simp] theorem State.latchDecoded_q (s : State) (w : ProgWord) : (s.latchDecoded w).q = s.q := rfl
@[simp] theorem State.latchDecoded_cur (s : State) (w : ProgWord) : (s.latchDecoded w).cur = s.cur := rfl
@[simp] theorem State.latchDecoded_graph (s : State) (w : ProgWord) : (s.latchDecoded w).graph = s.graph := rfl
@[simp] theorem State.latchDecoded_pstate (s : State) (w : ProgWord) : (s.latchDecoded w).pstate = s.pstate := rfl
@[simp] theorem State.latchDecoded_errCause (s : State) (w : ProgWord) : (s.latchDecoded w).errCause = s.errCause := rfl
@[simp] theorem State.latchDecoded_exitPc (s : State) (w : ProgWord) : (s.latchDecoded w).exitPc = s.exitPc := rfl
@[simp] theorem State.latchDecoded_errWord (s : State) (w : ProgWord) : (s.latchDecoded w).errWord = s.errWord := rfl
@[simp] theorem State.latchDecoded_prog (s : State) (w : ProgWord) : (s.latchDecoded w).prog = s.prog := rfl
@[simp] theorem State.latchDecoded_mem (s : State) (w : ProgWord) : (s.latchDecoded w).mem = s.mem := rfl
@[simp] theorem State.latchDecoded_hostAbort (s : State) (w : ProgWord) : (s.latchDecoded w).hostAbort = s.hostAbort := rfl

/-! ### atHook -/

@[simp] theorem State.atHook_r (t s : State) : (t.atHook s).r = t.r := rfl
@[simp] theorem State.atHook_f (t s : State) : (t.atHook s).f = t.f := rfl
@[simp] theorem State.atHook_vr (t s : State) : (t.atHook s).vr = t.vr := rfl
@[simp] theorem State.atHook_vf (t s : State) : (t.atHook s).vf = t.vf := rfl
@[simp] theorem State.atHook_pc (t s : State) : (t.atHook s).pc = t.pc := rfl
@[simp] theorem State.atHook_flags (t s : State) : (t.atHook s).flags = t.flags := rfl
@[simp] theorem State.atHook_isa (t s : State) : (t.atHook s).isa = t.isa := rfl
@[simp] theorem State.atHook_a0 (t s : State) : (t.atHook s).a0 = t.a0 := rfl
@[simp] theorem State.atHook_a1 (t s : State) : (t.atHook s).a1 = t.a1 := rfl
@[simp] theorem State.atHook_a2 (t s : State) : (t.atHook s).a2 = t.a2 := rfl
@[simp] theorem State.atHook_fa (t s : State) : (t.atHook s).fa = t.fa := rfl
@[simp] theorem State.atHook_clock (t s : State) : (t.atHook s).clock = t.clock + 1 := rfl
@[simp] theorem State.atHook_niter (t s : State) : (t.atHook s).niter = t.niter := rfl
@[simp] theorem State.atHook_eiter (t s : State) : (t.atHook s).eiter = t.eiter := rfl
@[simp] theorem State.atHook_q (t s : State) : (t.atHook s).q = t.q := rfl
@[simp] theorem State.atHook_cur (t s : State) : (t.atHook s).cur = t.cur := rfl
@[simp] theorem State.atHook_graph (t s : State) : (t.atHook s).graph = t.graph := rfl
@[simp] theorem State.atHook_pstate (t s : State) : (t.atHook s).pstate = s.pstate := rfl
@[simp] theorem State.atHook_errCause (t s : State) : (t.atHook s).errCause = s.errCause := rfl
@[simp] theorem State.atHook_exitPc (t s : State) : (t.atHook s).exitPc = s.exitPc := rfl
@[simp] theorem State.atHook_errWord (t s : State) : (t.atHook s).errWord = t.errWord := rfl
@[simp] theorem State.atHook_prog (t s : State) : (t.atHook s).prog = t.prog := rfl
@[simp] theorem State.atHook_mem (t s : State) : (t.atHook s).mem = t.mem := rfl
@[simp] theorem State.atHook_hostAbort (t s : State) : (t.atHook s).hostAbort = t.hostAbort := rfl

end Sys2Proof.Machine
end

