-- ==== Sys2Proof/Laws/Registers.lean ====
section
/-! SUPPORT. The read and write ports against each other: registers, flags, cursors, frontiers, data cells; and the fields
the bank multiplexer leaves alone. -/

namespace Sys2Proof.Machine

/-! ### Scalar registers -/

@[simp] theorem State.readR_rzero (s : State) : s.readR rzero = 0 := by simp [State.readR]

@[simp] theorem State.readF_fzero (s : State) : s.readF fzero = 0 := by simp [State.readF]

theorem State.readR_writeR_same (s : State) (i : Fin 24) (v : Word) :
    (s.writeR i v).readR i = if i = rzero then 0 else v := by simp [State.readR, State.writeR]

theorem State.readR_writeR_other (s : State) (i j : Fin 24) (v : Word) (h : j ≠ i) :
    (s.writeR i v).readR j = s.readR j := by
  have : i.val ≠ j.val := fun e => h (Fin.ext e.symm)
  simp [State.readR, State.writeR, this]

theorem State.readF_writeF_same (s : State) (i : Fin 18) (v : Word) :
    (s.writeF i v).readF i = if i = fzero then 0 else v := by simp [State.readF, State.writeF]

theorem State.readF_writeF_other (s : State) (i j : Fin 18) (v : Word) (h : j ≠ i) :
    (s.writeF i v).readF j = s.readF j := by
  have : i.val ≠ j.val := fun e => h (Fin.ext e.symm)
  simp [State.readF, State.writeF, this]

@[simp] theorem State.readR_writeF (s : State) (i : Fin 18) (j : Fin 24) (v : Word) : (s.writeF i v).readR j = s.readR j := rfl
@[simp] theorem State.readF_writeR (s : State) (i : Fin 24) (j : Fin 18) (v : Word) : (s.writeR i v).readF j = s.readF j := rfl
@[simp] theorem State.readR_writeMem (s : State) (a : Nat) (j : Fin 24) (v : Word) : (s.writeMem a v).readR j = s.readR j := rfl
@[simp] theorem State.readF_writeMem (s : State) (a : Nat) (j : Fin 18) (v : Word) : (s.writeMem a v).readF j = s.readF j := rfl

/-! ### Vector registers and cursors -/

@[simp] theorem State.readVR_writeVR_same (s : State) (i : Fin 16) (v : Lanes) : (s.writeVR i v).readVR i = v := by
  simp [State.readVR, State.writeVR]

@[simp] theorem State.readVF_writeVF_same (s : State) (i : Fin 16) (v : Lanes) : (s.writeVF i v).readVF i = v := by
  simp [State.readVF, State.writeVF]

@[simp] theorem State.readNiter_writeNiter_same (s : State) (i : Fin 4) (v : BitVec 32) :
    (s.writeNiter i v).readNiter i = v := by simp [State.readNiter, State.writeNiter]

theorem State.readNiter_writeNiter_other (s : State) (i j : Fin 4) (v : BitVec 32) (h : j ≠ i) :
    (s.writeNiter i v).readNiter j = s.readNiter j := by
  have : i.val ≠ j.val := fun e => h (Fin.ext e.symm)
  simp [State.readNiter, State.writeNiter, this]

/-! ### Flags -/

@[simp] theorem State.flagZ_setZ (s : State) (z : Bool) : (s.setZ z).flagZ = z := by
  cases z <;> simp [State.flagZ, State.setZ]

@[simp] theorem State.flagN_setZ (s : State) (z : Bool) : (s.setZ z).flagN = s.flagN := by
  cases z <;> simp [State.flagN, State.setZ]

@[simp] theorem State.flagP_setZ (s : State) (z : Bool) : (s.setZ z).flagP = s.flagP := by
  cases z <;> simp [State.flagP, State.setZ]

/-- Writing Z leaves the other seven bits. -/
theorem State.setZ_other_bits (s : State) (z : Bool) : (s.setZ z).flags &&& 0xFE#8 = s.flags &&& 0xFE#8 := by
  rw [State.setZ_flags]
  generalize s.flags = v
  cases z <;> revert v <;> decide

/-! ### Frontier roles -/

@[simp] theorem otherRole_ne (c : Fin 2) : otherRole c ≠ c := by revert c; decide

@[simp] theorem otherRole_otherRole (c : Fin 2) : otherRole (otherRole c) = c := by revert c; decide

@[simp] theorem State.currentQ_setCurrentQ (s : State) (q : Frontier) : (s.setCurrentQ q).currentQ = q := by
  simp [State.currentQ, State.setCurrentQ]

@[simp] theorem State.nextQ_setNextQ (s : State) (q : Frontier) : (s.setNextQ q).nextQ = q := by
  simp [State.nextQ, State.setNextQ]

@[simp] theorem State.nextQ_setCurrentQ (s : State) (q : Frontier) : (s.setCurrentQ q).nextQ = s.nextQ := by
  have : s.cur.val ≠ (otherRole s.cur).val := fun e => otherRole_ne s.cur (Fin.ext e.symm)
  simp [State.nextQ, State.setCurrentQ, this]

@[simp] theorem State.currentQ_setNextQ (s : State) (q : Frontier) : (s.setNextQ q).currentQ = s.currentQ := by
  have : (otherRole s.cur).val ≠ s.cur.val := fun e => otherRole_ne s.cur (Fin.ext e)
  simp [State.currentQ, State.setNextQ, this]

/-- After FSWAP's exchange the old next is current. -/
@[simp] theorem State.currentQ_swapRoles (s : State) : s.swapRoles.currentQ = s.nextQ := by
  have : s.cur.val ≠ (otherRole s.cur).val := fun e => otherRole_ne s.cur (Fin.ext e.symm)
  simp [State.currentQ, State.nextQ, State.swapRoles, this]

/-- After FSWAP's exchange the old current, emptied, is next. -/
@[simp] theorem State.nextQ_swapRoles (s : State) : s.swapRoles.nextQ = s.currentQ.init s.currentQ.kind := by
  simp [State.nextQ, State.swapRoles]

/-! ### Data memory -/

/-- What a cell reads after a store. -/
theorem State.readMem_writeMem (s : State) (a b : Nat) (v : Word) :
    (s.writeMem a v).readMem b = if b = a then v else s.readMem b := by
  simp [State.readMem, State.writeMem, Memory.read_write]

/-- A cell outside the four stored cells reads as before. -/
theorem State.readMem_writeMem4_other (s : State) (a b : Nat) (v : Lanes) (h : ¬ (a ≤ b ∧ b < a + 4)) :
    (s.writeMem4 a v).readMem b = s.readMem b := by
  simp only [State.readMem, State.writeMem4, Memory.read_writeList, List.length_cons, List.length_nil]
  rw [if_neg h]

/-- Lane k of a four-cell store is read back at cell a + k. -/
theorem State.readMem_writeMem4_lane (s : State) (a : Nat) (v : Lanes) (k : Fin 4) :
    (s.writeMem4 a v).readMem (a + k.val) = v.lane k := by
  fin_cases k <;> simp [State.writeMem4, State.readMem, Memory.read_writeList, Lanes.lane]

/-! ### The bank multiplexer -/

@[simp] theorem State.writeScalar_int (s : State) (i : Fin 24) (v : Word) : s.writeScalar .int i v = s.writeR i v := rfl
@[simp] theorem State.writeScalar_float (s : State) (i : Fin 18) (v : Word) : s.writeScalar .float i v = s.writeF i v := rfl
@[simp] theorem State.readScalar_int (s : State) (i : Fin 24) : s.readScalar .int i = s.readR i := rfl
@[simp] theorem State.readScalar_float (s : State) (i : Fin 18) : s.readScalar .float i = s.readF i := rfl
@[simp] theorem State.writeVector_int (s : State) (i : Fin 16) (v : Lanes) : s.writeVector .int i v = s.writeVR i v := rfl
@[simp] theorem State.writeVector_float (s : State) (i : Fin 16) (v : Lanes) : s.writeVector .float i v = s.writeVF i v := rfl
@[simp] theorem State.readVector_int (s : State) (i : Fin 16) : s.readVector .int i = s.readVR i := rfl
@[simp] theorem State.readVector_float (s : State) (i : Fin 16) : s.readVector .float i = s.readVF i := rfl

@[simp] theorem State.writeScalar_pc (s : State) (b : Bank) (i : Fin b.scalars) (v : Word) : (s.writeScalar b i v).pc = s.pc := by cases b <;> rfl
@[simp] theorem State.writeScalar_flags (s : State) (b : Bank) (i : Fin b.scalars) (v : Word) : (s.writeScalar b i v).flags = s.flags := by cases b <;> rfl
@[simp] theorem State.writeScalar_isa (s : State) (b : Bank) (i : Fin b.scalars) (v : Word) : (s.writeScalar b i v).isa = s.isa := by cases b <;> rfl
@[simp] theorem State.writeScalar_a0 (s : State) (b : Bank) (i : Fin b.scalars) (v : Word) : (s.writeScalar b i v).a0 = s.a0 := by cases b <;> rfl
@[simp] theorem State.writeScalar_a1 (s : State) (b : Bank) (i : Fin b.scalars) (v : Word) : (s.writeScalar b i v).a1 = s.a1 := by cases b <;> rfl
@[simp] theorem State.writeScalar_a2 (s : State) (b : Bank) (i : Fin b.scalars) (v : Word) : (s.writeScalar b i v).a2 = s.a2 := by cases b <;> rfl
@[simp] theorem State.writeScalar_fa (s : State) (b : Bank) (i : Fin b.scalars) (v : Word) : (s.writeScalar b i v).fa = s.fa := by cases b <;> rfl
@[simp] theorem State.writeScalar_clock (s : State) (b : Bank) (i : Fin b.scalars) (v : Word) : (s.writeScalar b i v).clock = s.clock := by cases b <;> rfl
@[simp] theorem State.writeScalar_niter (s : State) (b : Bank) (i : Fin b.scalars) (v : Word) : (s.writeScalar b i v).niter = s.niter := by cases b <;> rfl
@[simp] theorem State.writeScalar_eiter (s : State) (b : Bank) (i : Fin b.scalars) (v : Word) : (s.writeScalar b i v).eiter = s.eiter := by cases b <;> rfl
@[simp] theorem State.writeScalar_q (s : State) (b : Bank) (i : Fin b.scalars) (v : Word) : (s.writeScalar b i v).q = s.q := by cases b <;> rfl
@[simp] theorem State.writeScalar_cur (s : State) (b : Bank) (i : Fin b.scalars) (v : Word) : (s.writeScalar b i v).cur = s.cur := by cases b <;> rfl
@[simp] theorem State.writeScalar_graph (s : State) (b : Bank) (i : Fin b.scalars) (v : Word) : (s.writeScalar b i v).graph = s.graph := by cases b <;> rfl
@[simp] theorem State.writeScalar_pstate (s : State) (b : Bank) (i : Fin b.scalars) (v : Word) : (s.writeScalar b i v).pstate = s.pstate := by cases b <;> rfl
@[simp] theorem State.writeScalar_errCause (s : State) (b : Bank) (i : Fin b.scalars) (v : Word) : (s.writeScalar b i v).errCause = s.errCause := by cases b <;> rfl
@[simp] theorem State.writeScalar_exitPc (s : State) (b : Bank) (i : Fin b.scalars) (v : Word) : (s.writeScalar b i v).exitPc = s.exitPc := by cases b <;> rfl
@[simp] theorem State.writeScalar_errWord (s : State) (b : Bank) (i : Fin b.scalars) (v : Word) : (s.writeScalar b i v).errWord = s.errWord := by cases b <;> rfl
@[simp] theorem State.writeScalar_prog (s : State) (b : Bank) (i : Fin b.scalars) (v : Word) : (s.writeScalar b i v).prog = s.prog := by cases b <;> rfl
@[simp] theorem State.writeScalar_mem (s : State) (b : Bank) (i : Fin b.scalars) (v : Word) : (s.writeScalar b i v).mem = s.mem := by cases b <;> rfl
@[simp] theorem State.writeScalar_hostAbort (s : State) (b : Bank) (i : Fin b.scalars) (v : Word) : (s.writeScalar b i v).hostAbort = s.hostAbort := by cases b <;> rfl
@[simp] theorem State.writeScalar_vr (s : State) (b : Bank) (i : Fin b.scalars) (v : Word) : (s.writeScalar b i v).vr = s.vr := by cases b <;> rfl
@[simp] theorem State.writeScalar_vf (s : State) (b : Bank) (i : Fin b.scalars) (v : Word) : (s.writeScalar b i v).vf = s.vf := by cases b <;> rfl

@[simp] theorem State.writeVector_pc (s : State) (b : Bank) (i : Fin 16) (v : Lanes) : (s.writeVector b i v).pc = s.pc := by cases b <;> rfl
@[simp] theorem State.writeVector_flags (s : State) (b : Bank) (i : Fin 16) (v : Lanes) : (s.writeVector b i v).flags = s.flags := by cases b <;> rfl
@[simp] theorem State.writeVector_isa (s : State) (b : Bank) (i : Fin 16) (v : Lanes) : (s.writeVector b i v).isa = s.isa := by cases b <;> rfl
@[simp] theorem State.writeVector_a0 (s : State) (b : Bank) (i : Fin 16) (v : Lanes) : (s.writeVector b i v).a0 = s.a0 := by cases b <;> rfl
@[simp] theorem State.writeVector_a1 (s : State) (b : Bank) (i : Fin 16) (v : Lanes) : (s.writeVector b i v).a1 = s.a1 := by cases b <;> rfl
@[simp] theorem State.writeVector_a2 (s : State) (b : Bank) (i : Fin 16) (v : Lanes) : (s.writeVector b i v).a2 = s.a2 := by cases b <;> rfl
@[simp] theorem State.writeVector_fa (s : State) (b : Bank) (i : Fin 16) (v : Lanes) : (s.writeVector b i v).fa = s.fa := by cases b <;> rfl
@[simp] theorem State.writeVector_clock (s : State) (b : Bank) (i : Fin 16) (v : Lanes) : (s.writeVector b i v).clock = s.clock := by cases b <;> rfl
@[simp] theorem State.writeVector_niter (s : State) (b : Bank) (i : Fin 16) (v : Lanes) : (s.writeVector b i v).niter = s.niter := by cases b <;> rfl
@[simp] theorem State.writeVector_eiter (s : State) (b : Bank) (i : Fin 16) (v : Lanes) : (s.writeVector b i v).eiter = s.eiter := by cases b <;> rfl
@[simp] theorem State.writeVector_q (s : State) (b : Bank) (i : Fin 16) (v : Lanes) : (s.writeVector b i v).q = s.q := by cases b <;> rfl
@[simp] theorem State.writeVector_cur (s : State) (b : Bank) (i : Fin 16) (v : Lanes) : (s.writeVector b i v).cur = s.cur := by cases b <;> rfl
@[simp] theorem State.writeVector_graph (s : State) (b : Bank) (i : Fin 16) (v : Lanes) : (s.writeVector b i v).graph = s.graph := by cases b <;> rfl
@[simp] theorem State.writeVector_pstate (s : State) (b : Bank) (i : Fin 16) (v : Lanes) : (s.writeVector b i v).pstate = s.pstate := by cases b <;> rfl
@[simp] theorem State.writeVector_errCause (s : State) (b : Bank) (i : Fin 16) (v : Lanes) : (s.writeVector b i v).errCause = s.errCause := by cases b <;> rfl
@[simp] theorem State.writeVector_exitPc (s : State) (b : Bank) (i : Fin 16) (v : Lanes) : (s.writeVector b i v).exitPc = s.exitPc := by cases b <;> rfl
@[simp] theorem State.writeVector_errWord (s : State) (b : Bank) (i : Fin 16) (v : Lanes) : (s.writeVector b i v).errWord = s.errWord := by cases b <;> rfl
@[simp] theorem State.writeVector_prog (s : State) (b : Bank) (i : Fin 16) (v : Lanes) : (s.writeVector b i v).prog = s.prog := by cases b <;> rfl
@[simp] theorem State.writeVector_mem (s : State) (b : Bank) (i : Fin 16) (v : Lanes) : (s.writeVector b i v).mem = s.mem := by cases b <;> rfl
@[simp] theorem State.writeVector_hostAbort (s : State) (b : Bank) (i : Fin 16) (v : Lanes) : (s.writeVector b i v).hostAbort = s.hostAbort := by cases b <;> rfl
@[simp] theorem State.writeVector_r (s : State) (b : Bank) (i : Fin 16) (v : Lanes) : (s.writeVector b i v).r = s.r := by cases b <;> rfl
@[simp] theorem State.writeVector_f (s : State) (b : Bank) (i : Fin 16) (v : Lanes) : (s.writeVector b i v).f = s.f := by cases b <;> rfl

@[simp] theorem State.writeMem4_pc (s : State) (a : Nat) (v : Lanes) : (s.writeMem4 a v).pc = s.pc := rfl
@[simp] theorem State.writeMem4_flags (s : State) (a : Nat) (v : Lanes) : (s.writeMem4 a v).flags = s.flags := rfl
@[simp] theorem State.writeMem4_isa (s : State) (a : Nat) (v : Lanes) : (s.writeMem4 a v).isa = s.isa := rfl
@[simp] theorem State.writeMem4_a0 (s : State) (a : Nat) (v : Lanes) : (s.writeMem4 a v).a0 = s.a0 := rfl
@[simp] theorem State.writeMem4_a1 (s : State) (a : Nat) (v : Lanes) : (s.writeMem4 a v).a1 = s.a1 := rfl
@[simp] theorem State.writeMem4_a2 (s : State) (a : Nat) (v : Lanes) : (s.writeMem4 a v).a2 = s.a2 := rfl
@[simp] theorem State.writeMem4_fa (s : State) (a : Nat) (v : Lanes) : (s.writeMem4 a v).fa = s.fa := rfl
@[simp] theorem State.writeMem4_clock (s : State) (a : Nat) (v : Lanes) : (s.writeMem4 a v).clock = s.clock := rfl
@[simp] theorem State.writeMem4_niter (s : State) (a : Nat) (v : Lanes) : (s.writeMem4 a v).niter = s.niter := rfl
@[simp] theorem State.writeMem4_eiter (s : State) (a : Nat) (v : Lanes) : (s.writeMem4 a v).eiter = s.eiter := rfl
@[simp] theorem State.writeMem4_q (s : State) (a : Nat) (v : Lanes) : (s.writeMem4 a v).q = s.q := rfl
@[simp] theorem State.writeMem4_cur (s : State) (a : Nat) (v : Lanes) : (s.writeMem4 a v).cur = s.cur := rfl
@[simp] theorem State.writeMem4_graph (s : State) (a : Nat) (v : Lanes) : (s.writeMem4 a v).graph = s.graph := rfl
@[simp] theorem State.writeMem4_pstate (s : State) (a : Nat) (v : Lanes) : (s.writeMem4 a v).pstate = s.pstate := rfl
@[simp] theorem State.writeMem4_errCause (s : State) (a : Nat) (v : Lanes) : (s.writeMem4 a v).errCause = s.errCause := rfl
@[simp] theorem State.writeMem4_exitPc (s : State) (a : Nat) (v : Lanes) : (s.writeMem4 a v).exitPc = s.exitPc := rfl
@[simp] theorem State.writeMem4_errWord (s : State) (a : Nat) (v : Lanes) : (s.writeMem4 a v).errWord = s.errWord := rfl
@[simp] theorem State.writeMem4_prog (s : State) (a : Nat) (v : Lanes) : (s.writeMem4 a v).prog = s.prog := rfl
@[simp] theorem State.writeMem4_hostAbort (s : State) (a : Nat) (v : Lanes) : (s.writeMem4 a v).hostAbort = s.hostAbort := rfl
@[simp] theorem State.writeMem4_r (s : State) (a : Nat) (v : Lanes) : (s.writeMem4 a v).r = s.r := rfl
@[simp] theorem State.writeMem4_f (s : State) (a : Nat) (v : Lanes) : (s.writeMem4 a v).f = s.f := rfl
@[simp] theorem State.writeMem4_vr (s : State) (a : Nat) (v : Lanes) : (s.writeMem4 a v).vr = s.vr := rfl
@[simp] theorem State.writeMem4_vf (s : State) (a : Nat) (v : Lanes) : (s.writeMem4 a v).vf = s.vf := rfl
end Sys2Proof.Machine
end

