-- ==== Sys2Proof/Laws/Operands.lean ====
section
/-! SUPPORT. One lemma for each operand form and shared operation that says everything it can do: if it answers a value,
then what holds; and what it answers when its checks pass or fail. Later proofs cite these and unfold none of them. -/

namespace Sys2Proof.Machine

/-! ### Errors and their sequence -/

@[simp] theorem ok_bind {α β : Type} (a : α) (f : α → Except Cause β) : (Except.ok a >>= f) = f a := rfl

@[simp] theorem error_bind {α β : Type} (c : Cause) (f : α → Except Cause β) : (Except.error c >>= f) = Except.error c := rfl

/-- A sequence answers a value iff its first part does and the rest does from there. -/
theorem bind_eq_ok {α β : Type} (x : Except Cause α) (f : α → Except Cause β) (b : β) :
    (x >>= f) = .ok b ↔ ∃ a, x = .ok a ∧ f a = .ok b := by
  cases x <;> simp

/-- A sequence ends in an error iff its first part does, or the rest does from the first part's value. -/
theorem bind_eq_error {α β : Type} (x : Except Cause α) (f : α → Except Cause β) (c : Cause) :
    (x >>= f) = .error c ↔ x = .error c ∨ ∃ a, x = .ok a ∧ f a = .error c := by
  cases x <;> simp

@[simp] theorem conclude_ok (s t : State) : conclude s (.ok t) = .next t := rfl

@[simp] theorem conclude_error (s : State) (c : Cause) : conclude s (.error c) = .next (s.raise c) := rfl

/-- The end of an execute is the instruction's own next state, or the error taken on the state it started from. -/
theorem conclude_eq_next (s t : State) (r : Except Cause State) :
    conclude s r = .next t ↔ r = .ok t ∨ ∃ c, r = .error c ∧ t = s.raise c := by
  cases r with
  | ok u => simp
  | error c => simp [eq_comm]

/-! ### Register and iterator fields -/

theorem scalarIndex_of_lt {b : Bank} {n : Nat} (h : n < b.scalars) : scalarIndex b n = .ok ⟨n, h⟩ := by
  simp [scalarIndex, h]

theorem scalarIndex_of_not_lt {b : Bank} {n : Nat} (h : ¬ n < b.scalars) : scalarIndex b n = .error .regIndex := by
  simp [scalarIndex, h]

theorem scalarIndex_eq_ok {b : Bank} {n : Nat} {k : Fin b.scalars} : scalarIndex b n = .ok k ↔ k.val = n := by
  unfold scalarIndex
  split
  · simp [Fin.ext_iff, eq_comm]
  · simp only [reduceCtorEq, false_iff]; intro h; have := k.isLt; omega

theorem scalarIndex_eq_error {b : Bank} {n : Nat} {c : Cause} :
    scalarIndex b n = .error c ↔ ¬ n < b.scalars ∧ c = .regIndex := by
  unfold scalarIndex
  split <;> simp_all [eq_comm]

theorem vectorIndex_of_lt {n : Nat} (h : n < 16) : vectorIndex n = .ok ⟨n, h⟩ := by simp [vectorIndex, h]

theorem vectorIndex_of_not_lt {n : Nat} (h : ¬ n < 16) : vectorIndex n = .error .regIndex := by simp [vectorIndex, h]

theorem vectorIndex_eq_ok {n : Nat} {k : Fin 16} : vectorIndex n = .ok k ↔ k.val = n := by
  unfold vectorIndex
  split
  · simp [Fin.ext_iff, eq_comm]
  · simp only [reduceCtorEq, false_iff]; omega

theorem vectorIndex_eq_error {n : Nat} {c : Cause} : vectorIndex n = .error c ↔ ¬ n < 16 ∧ c = .regIndex := by
  unfold vectorIndex
  split <;> simp_all [eq_comm]

theorem iterIndex_of_lt {i : Byte} (h : i.toNat < 4) : iterIndex i = .ok ⟨i.toNat, h⟩ := by simp [iterIndex, h]

theorem iterIndex_of_not_lt {i : Byte} (h : ¬ i.toNat < 4) : iterIndex i = .error .iterIndex := by simp [iterIndex, h]

theorem iterIndex_eq_ok {i : Byte} {k : Fin 4} : iterIndex i = .ok k ↔ k.val = i.toNat := by
  unfold iterIndex
  split
  · simp [Fin.ext_iff, eq_comm]
  · simp only [reduceCtorEq, false_iff]; omega

theorem iterIndex_eq_error {i : Byte} {c : Cause} : iterIndex i = .error c ↔ ¬ i.toNat < 4 ∧ c = .iterIndex := by
  unfold iterIndex
  split <;> simp_all [eq_comm]

/-! ### Sources -/

@[simp] theorem State.src2_imm (s : State) (b : Bank) (v : Word) : s.src2 b (.imm v) = .ok v := rfl

theorem State.src2_reg (s : State) {b : Bank} {i : Word} (h : i.toNat < b.scalars) :
    s.src2 b (.reg i) = .ok (s.readScalar b ⟨i.toNat, h⟩) := by
  simp [State.src2, scalarIndex_of_lt h]

theorem State.src2_eq_error (s : State) {b : Bank} {x : Src2} {c : Cause} :
    s.src2 b x = .error c ↔ x.ok b = false ∧ c = .regIndex := by
  cases x <;> simp [State.src2, Src2.ok, bind_eq_error, scalarIndex_eq_error]

@[simp] theorem State.src1_imm (s : State) (b : Bank) (v : Word) : s.src1 b (.imm v) = .ok v := rfl

theorem State.src1_reg (s : State) {b : Bank} {i : Byte} (h : i.toNat < b.scalars) :
    s.src1 b (.reg i) = .ok (s.readScalar b ⟨i.toNat, h⟩) := by
  simp [State.src1, scalarIndex_of_lt h]

theorem State.src1_eq_error (s : State) {b : Bank} {x : Src1} {c : Cause} :
    s.src1 b x = .error c ↔ x.ok b = false ∧ c = .regIndex := by
  cases x <;> simp [State.src1, Src1.ok, scalarOk, bind_eq_error, scalarIndex_eq_error]

/-! ### Addresses and targets -/

/-- An effective address that is given lies in data memory with all `len` cells of the access. -/
theorem State.effAddr_eq_ok {s : State} {len : Nat} {a : Src1} {n : Nat} (h : s.effAddr len a = .ok n) :
    ∃ v, s.src1 .int a = .ok v ∧ addrOk v.toInt len = true ∧ n = v.toInt.toNat ∧ n + len ≤ 65536 := by
  obtain ⟨v, hv, h⟩ := (bind_eq_ok _ _ _).1 h
  split at h
  · next hok =>
    refine ⟨v, hv, hok, by simpa using h.symm, ?_⟩
    have : n = v.toInt.toNat := by simpa using h.symm
    simp only [addrOk, Bool.and_eq_true, decide_eq_true_eq] at hok
    omega
  · simp at h

theorem State.effAddr_of_ok {s : State} {len : Nat} {a : Src1} {v : Word} (hv : s.src1 .int a = .ok v)
    (h0 : 0 ≤ v.toInt) (h1 : v.toInt + len ≤ 65536) : s.effAddr len a = .ok v.toInt.toNat := by
  simp [State.effAddr, hv, addrOk, h0, h1]

theorem State.effAddr_of_bad {s : State} {len : Nat} {a : Src1} {v : Word} (hv : s.src1 .int a = .ok v)
    (h : ¬ (0 ≤ v.toInt ∧ v.toInt + len ≤ 65536)) : s.effAddr len a = .error .memAddress := by
  simp only [State.effAddr, hv, ok_bind, addrOk, Bool.and_eq_true, decide_eq_true_eq]
  rw [if_neg h]

theorem State.effAddr_eq_error {s : State} {len : Nat} {a : Src1} {c : Cause} (h : s.effAddr len a = .error c) :
    (a.ok .int = false ∧ c = .regIndex) ∨ c = .memAddress := by
  rcases (bind_eq_error _ _ _).1 h with h | ⟨v, -, h⟩
  · exact .inl (s.src1_eq_error.1 h)
  · split at h
    · simp at h
    · exact .inr (by simpa using h.symm)

theorem State.branch_of_lt {s : State} {t : Word} (h : t.toNat < 8192) (taken : Bool) :
    s.branch t taken = .ok (if taken then s.setPc t else s) := by
  simp [State.branch, checkTarget, h]

theorem State.branch_of_not_lt {s : State} {t : Word} (h : ¬ t.toNat < 8192) (taken : Bool) :
    s.branch t taken = .error .branchTarget := by
  simp [State.branch, checkTarget, h]

/-- A branch that completes has a legal target, and writes PC if it is taken. -/
theorem State.branch_eq_ok {s u : State} {t : Word} {taken : Bool} (h : s.branch t taken = .ok u) :
    t.toNat < 8192 ∧ u = if taken then s.setPc t else s := by
  by_cases ht : t.toNat < 8192
  · rw [State.branch_of_lt ht] at h
    exact ⟨ht, by simpa using h.symm⟩
  · rw [State.branch_of_not_lt ht] at h
    simp at h

theorem State.branch_eq_error {s : State} {t : Word} {taken : Bool} {c : Cause} (h : s.branch t taken = .error c) :
    ¬ t.toNat < 8192 ∧ c = .branchTarget := by
  by_cases ht : t.toNat < 8192
  · rw [State.branch_of_lt ht] at h; simp at h
  · rw [State.branch_of_not_lt ht] at h
    exact ⟨ht, by simpa using h.symm⟩

/-! ### Arithmetic forms -/

/-- An arithmetic form that completes has written its destination with the operation's value. -/
theorem State.arith_eq_ok {s t : State} {b : Bank} {d s1 : Byte} {s2 : Src2} {op : Word → Word → Except Cause Word}
    (h : s.arith b d s1 s2 op = .ok t) :
    ∃ (k i : Fin b.scalars) (y v : Word), k.val = d.toNat ∧ i.val = s1.toNat ∧ s.src2 b s2 = .ok y ∧
      op (s.readScalar b i) y = .ok v ∧ t = s.writeScalar b k v := by
  simp only [State.arith, bind_eq_ok, scalarIndex_eq_ok] at h
  obtain ⟨k, hk, i, hi, y, hy, v, hv, h⟩ := h
  exact ⟨k, i, y, v, hk, hi, hy, hv, by simpa using h.symm⟩

theorem State.arith_of_lt {s : State} {b : Bank} {d s1 : Byte} {s2 : Src2} {op : Word → Word → Except Cause Word} {y : Word}
    (hd : d.toNat < b.scalars) (h1 : s1.toNat < b.scalars) (hy : s.src2 b s2 = .ok y) :
    s.arith b d s1 s2 op =
      (op (s.readScalar b ⟨s1.toNat, h1⟩) y >>= fun v => .ok (s.writeScalar b ⟨d.toNat, hd⟩ v)) := by
  simp [State.arith, scalarIndex_of_lt hd, scalarIndex_of_lt h1, hy]

/-- An arithmetic form fails in a register field or in its operation. -/
theorem State.arith_eq_error {s : State} {b : Bank} {d s1 : Byte} {s2 : Src2} {op : Word → Word → Except Cause Word}
    {c : Cause} (h : s.arith b d s1 s2 op = .error c) :
    ((scalarOk b d && scalarOk b s1 && s2.ok b) = false ∧ c = .regIndex) ∨ ∃ x y, op x y = .error c := by
  simp only [State.arith, bind_eq_error, scalarIndex_eq_error, State.src2_eq_error, scalarIndex_eq_ok] at h
  rcases h with h | ⟨k, -, h | ⟨i, -, h | ⟨y, -, h | ⟨v, -, h⟩⟩⟩⟩
  · exact .inl ⟨by simp [scalarOk, h.1], h.2⟩
  · exact .inl ⟨by simp [scalarOk, h.1], h.2⟩
  · exact .inl ⟨by simp [h.1], h.2⟩
  · exact .inr ⟨_, _, h⟩
  · simp at h

/-- A lane-wise form that completes has written its destination with the operation's lanes. -/
theorem State.lanewise_eq_ok {s t : State} {b : Bank} {d s1 : Byte} {s2 : Word} {op : Lanes → Lanes → Except Cause Lanes}
    (h : s.lanewise b d s1 s2 op = .ok t) :
    ∃ (k i j : Fin 16) (v : Lanes), k.val = d.toNat ∧ i.val = s1.toNat ∧ j.val = s2.toNat ∧
      op (s.readVector b i) (s.readVector b j) = .ok v ∧ t = s.writeVector b k v := by
  simp only [State.lanewise, bind_eq_ok, vectorIndex_eq_ok] at h
  obtain ⟨k, hk, i, hi, j, hj, v, hv, h⟩ := h
  exact ⟨k, i, j, v, hk, hi, hj, hv, by simpa using h.symm⟩

theorem State.lanewise_of_lt {s : State} {b : Bank} {d s1 : Byte} {s2 : Word} {op : Lanes → Lanes → Except Cause Lanes}
    (hd : d.toNat < 16) (h1 : s1.toNat < 16) (h2 : s2.toNat < 16) :
    s.lanewise b d s1 s2 op =
      (op (s.readVector b ⟨s1.toNat, h1⟩) (s.readVector b ⟨s2.toNat, h2⟩) >>= fun v =>
        .ok (s.writeVector b ⟨d.toNat, hd⟩ v)) := by
  simp [State.lanewise, vectorIndex_of_lt hd, vectorIndex_of_lt h1, vectorIndex_of_lt h2]

/-- A lane-wise form fails in a register field or in its operation. -/
theorem State.lanewise_eq_error {s : State} {b : Bank} {d s1 : Byte} {s2 : Word}
    {op : Lanes → Lanes → Except Cause Lanes} {c : Cause} (h : s.lanewise b d s1 s2 op = .error c) :
    ((vectorOk d && vectorOk s1 && decide (s2.toNat < 16)) = false ∧ c = .regIndex) ∨ ∃ x y, op x y = .error c := by
  simp only [State.lanewise, bind_eq_error, vectorIndex_eq_error, vectorIndex_eq_ok] at h
  rcases h with h | ⟨k, -, h | ⟨i, -, h | ⟨j, -, h | ⟨v, -, h⟩⟩⟩⟩
  · exact .inl ⟨by simp [vectorOk, h.1], h.2⟩
  · exact .inl ⟨by simp [vectorOk, h.1], h.2⟩
  · refine .inl ⟨?_, h.2⟩
    rw [decide_eq_false h.1, Bool.and_false]
  · exact .inr ⟨_, _, h⟩
  · simp at h

/-! ### The query engine -/

/-- An array read that is given is the entry at a non-negative index inside the array. -/
theorem csrEntry_eq_ok {array : List Word} {i : Int} {v : Word} :
    csrEntry array i = .ok v ↔ 0 ≤ i ∧ array[i.toNat]? = some v := by
  unfold csrEntry
  split
  · simp only [reduceCtorEq, false_iff]; omega
  · split <;> simp_all

theorem csrEntry_eq_error {array : List Word} {i : Int} {c : Cause} (h : csrEntry array i = .error c) :
    c = .csrBounds ∧ (i < 0 ∨ (array.length : Int) ≤ i) := by
  unfold csrEntry at h
  split at h
  · exact ⟨by simpa using h.symm, .inl ‹_›⟩
  · split at h
    · simp at h
    · next hn => exact ⟨by simpa using h.symm, .inr (by have := List.getElem?_eq_none_iff.1 hn; omega)⟩

theorem Csr.needNode_eq_ok {g : Csr} {u : Word} {k : Nat} :
    g.needNode u = .ok k ↔ u.toInt = k ∧ k < g.n.toNat := by
  unfold Csr.needNode
  split
  · simp only [Except.ok.injEq]; omega
  · simp only [reduceCtorEq, false_iff]; omega

theorem Csr.needNode_eq_error {g : Csr} {u : Word} {c : Cause} :
    g.needNode u = .error c ↔ ¬ (0 ≤ u.toInt ∧ u.toInt < g.n.toNat) ∧ c = .nodeRange := by
  unfold Csr.needNode
  split <;> simp_all [eq_comm]

end Sys2Proof.Machine
end

