-- ==== Sys2Proof/Laws/Frontier.lean ====
section
/-! SUPPORT. What each frontier operation can do (44_frontier.md R281 to R286, R291). -/

namespace Sys2Proof.Machine

@[simp] theorem Frontier.enqueue_kind (q : Frontier) (x : Word) : (q.enqueue x).kind = q.kind := rfl
@[simp] theorem Frontier.enqueue_front (q : Frontier) (x : Word) : (q.enqueue x).front = q.front := rfl
@[simp] theorem Frontier.enqueue_back (q : Frontier) (x : Word) : (q.enqueue x).back = q.back + 1 := rfl
@[simp] theorem Frontier.enqueue_slot (q : Frontier) (x : Word) :
    (q.enqueue x).slot = Memory.write q.slot (Frontier.slotIndex q.back) x := rfl
@[simp] theorem Frontier.init_kind (q : Frontier) (k : FrontierKind) : (q.init k).kind = k := rfl
@[simp] theorem Frontier.init_front (q : Frontier) (k : FrontierKind) : (q.init k).front = 0 := rfl
@[simp] theorem Frontier.init_back (q : Frontier) (k : FrontierKind) : (q.init k).back = 0 := rfl
@[simp] theorem Frontier.init_slot (q : Frontier) (k : FrontierKind) : (q.init k).slot = q.slot := rfl
@[simp] theorem Frontier.init_size (q : Frontier) (k : FrontierKind) : (q.init k).size = 0 := by simp [Frontier.size]

/-- A slot index is below the capacity. -/
theorem Frontier.slotIndex_lt (c : BitVec 64) : Frontier.slotIndex c < 1024 := Nat.mod_lt _ (by decide)

/-- Emptiness is size 0 (R280). -/
theorem Frontier.isEmpty_iff_size (q : Frontier) : q.isEmpty = true ↔ q.size = 0 := by
  simp only [Frontier.isEmpty, Frontier.size, beq_iff_eq]
  constructor
  · intro h; simp [h]
  · intro h
    have : q.back - q.front = 0#64 := BitVec.eq_of_toNat_eq (by simpa using h)
    exact (BitVec.sub_eq_iff_eq_add.1 this |>.trans (by simp)).symm

/-- A push that completes found a QUEUE with room and stored at back. -/
theorem Frontier.push_eq_ok {q p : Frontier} {x : Word} :
    q.push x = .ok p ↔ q.kind = .queue ∧ q.size ≠ 1024 ∧ p = q.enqueue x := by
  by_cases hk : q.kind = .queue <;> by_cases hf : q.size = 1024 <;>
    simp [Frontier.push, Frontier.needQueue, Frontier.isFull, hk, hf]
  all_goals exact eq_comm

theorem Frontier.push_eq_error {q : Frontier} {x : Word} {c : Cause} :
    q.push x = .error c ↔ (q.kind ≠ .queue ∧ c = .frontierKind) ∨ (q.kind = .queue ∧ q.size = 1024 ∧ c = .frontierFull) := by
  by_cases hk : q.kind = .queue <;> by_cases hf : q.size = 1024 <;>
    simp [Frontier.push, Frontier.needQueue, Frontier.isFull, hk, hf]
  all_goals exact eq_comm

/-- A pop that completes found a non-empty QUEUE and gives its oldest value. -/
theorem Frontier.pop_eq_ok {q : Frontier} {p : Word × Frontier} :
    q.pop = .ok p ↔ q.kind = .queue ∧ q.size ≠ 0 ∧ p = (q.oldest, { q with front := q.front + 1 }) := by
  have he := q.isEmpty_iff_size
  by_cases hk : q.kind = .queue <;> by_cases hf : q.isEmpty = true <;>
    simp_all [Frontier.pop, Frontier.needQueue]
  all_goals exact eq_comm

theorem Frontier.pop_eq_error {q : Frontier} {c : Cause} :
    q.pop = .error c ↔ (q.kind ≠ .queue ∧ c = .frontierKind) ∨ (q.kind = .queue ∧ q.size = 0 ∧ c = .frontierEmpty) := by
  have he := q.isEmpty_iff_size
  by_cases hk : q.kind = .queue <;> by_cases hf : q.isEmpty = true <;>
    simp_all [Frontier.pop, Frontier.needQueue]
  all_goals exact eq_comm

theorem Frontier.testEmpty_eq_ok {q : Frontier} {e : Bool} :
    q.testEmpty = .ok e ↔ q.kind = .queue ∧ e = q.isEmpty := by
  by_cases hk : q.kind = .queue <;> simp [Frontier.testEmpty, Frontier.needQueue, hk]
  all_goals exact eq_comm

theorem Frontier.testEmpty_eq_error {q : Frontier} {c : Cause} :
    q.testEmpty = .error c ↔ q.kind ≠ .queue ∧ c = .frontierKind := by
  by_cases hk : q.kind = .queue <;> simp [Frontier.testEmpty, Frontier.needQueue, hk]
  all_goals exact eq_comm

/-- A fill that completes found a QUEUE with room for every node id. -/
theorem Frontier.fill_eq_ok {q p : Frontier} {n : Nat} :
    q.fill n = .ok p ↔ q.kind = .queue ∧ q.size + n ≤ 1024 ∧
      p = (List.range n).foldl (fun p u => p.enqueue (BitVec.ofNat 32 u)) q := by
  by_cases hk : q.kind = .queue
  · by_cases hf : q.size + n > 1024
    · simp only [Frontier.fill, Frontier.needQueue, hk, if_true, ok_bind, if_pos hf]
      simp only [reduceCtorEq, false_iff]; omega
    · simp only [Frontier.fill, Frontier.needQueue, hk, if_true, ok_bind, if_neg hf, Except.ok.injEq, true_and]
      exact ⟨fun h => ⟨by omega, h.symm⟩, fun h => h.2.symm⟩
  · simp [Frontier.fill, Frontier.needQueue, hk]

theorem Frontier.fill_eq_error {q : Frontier} {n : Nat} {c : Cause} :
    q.fill n = .error c ↔ (q.kind ≠ .queue ∧ c = .frontierKind) ∨
      (q.kind = .queue ∧ 1024 < q.size + n ∧ c = .frontierFull) := by
  by_cases hk : q.kind = .queue
  · by_cases hf : q.size + n > 1024
    · simp only [Frontier.fill, Frontier.needQueue, hk, if_true, ok_bind, if_pos hf, Except.error.injEq, true_and]
      exact ⟨fun h => .inr ⟨hf, h.symm⟩, fun h => by rcases h with h | h; exacts [absurd rfl h.1, h.2.symm]⟩
    · simp only [Frontier.fill, Frontier.needQueue, hk, if_true, ok_bind, if_neg hf, reduceCtorEq, false_iff]
      rintro (h | h)
      · exact h.1 rfl
      · exact hf h.2.1
  · have he : q.fill n = .error .frontierKind := by simp [Frontier.fill, Frontier.needQueue, hk]
    rw [he, Except.error.injEq]
    constructor
    · intro h; exact .inl ⟨hk, h.symm⟩
    · rintro (h | h)
      · exact h.2.symm
      · exact absurd h.1 hk

/-- A property that one enqueue with room keeps is kept by a fold of enqueues with room for all of them. -/
theorem Frontier.foldl_enqueue_induction {P : Frontier → Prop} {C : Nat} (f : Nat → Word)
    (keep : ∀ q x, P q → q.size < C → P (q.enqueue x) ∧ (q.enqueue x).size = q.size + 1) :
    ∀ (l : List Nat) (q : Frontier), P q → q.size + l.length ≤ C →
      P (l.foldl (fun p u => p.enqueue (f u)) q) ∧
      (l.foldl (fun p u => p.enqueue (f u)) q).size = q.size + l.length := by
  intro l
  induction l with
  | nil => intro q hq _; exact ⟨hq, rfl⟩
  | cons u l ih =>
    intro q hq hl
    simp only [List.length_cons] at hl
    obtain ⟨hp, hs⟩ := keep q (f u) hq (by omega)
    obtain ⟨h1, h2⟩ := ih (q.enqueue (f u)) hp (by omega)
    exact ⟨h1, by simp only [List.foldl_cons, List.length_cons]; omega⟩

end Sys2Proof.Machine
end

