-- ==== Sys2Proof/Laws/Exec.lean ====
section
/-! SUPPORT. Everything one execute can do, once: it completes with the instruction's own effect over the named operations,
or an error is taken on the state it started from (60_exceptions.md R370, R374). Later proofs split this and unfold no
meaning. -/

namespace Sys2Proof.Machine

/-- The states an instruction can complete in, over the named operations. -/
def Completes (i : Instr) (s t : State) : Prop :=
  match i with
  | .halt => t = s.halt
  | .jmp a => a.toNat < 8192 ∧ t = s.setPc a
  | .bz a => a.toNat < 8192 ∧ t = if s.flagZ then s.setPc a else s
  | .bnz a => a.toNat < 8192 ∧ t = if !s.flagZ then s.setPc a else s
  | .blt a => a.toNat < 8192 ∧ t = if s.flagN then s.setPc a else s
  | .bge a => a.toNat < 8192 ∧ t = if s.flagP || s.flagZ then s.setPc a else s
  | .niter n => ∃ k : Fin 4, k.val = n.toNat ∧ t = s.writeNiter k 0
  | .nnext n => ∃ k : Fin 4, k.val = n.toNat ∧ (t = s.setZ true ∨
      ∃ nb w, t = (((s.writeR rnbr nb).writeR rval w).writeNiter k (s.readNiter k + 1)).setZ false)
  | .eiter => t = (s.writeEiter 0).writeR rnode 0
  | .enext => ∃ u e, t = ((s.writeR rnode u).writeEiter e).setZ true ∨
      ∃ nb w, t = ((((s.writeR rnode u).writeR rnbr nb).writeR rval w).writeEiter e).setZ false
  | .hase => ∃ z, t = s.setZ z
  | .deg _ => ∃ v, t = s.writeR rval v
  | .add b d _ _ | .sub b d _ _ | .mul b d _ _ | .div b d _ _ | .mov b d _ | .movc b d _ | .vsum b d _ =>
    ∃ (k : Fin b.scalars) (v : Word), k.val = d.toNat ∧ t = s.writeScalar b k v
  | .ld b d x => ∃ (k : Fin b.scalars) (a : Nat), k.val = d.toNat ∧ s.effAddr 1 x = .ok a ∧ t = s.writeScalar b k (s.readMem a)
  | .cmp b s1 x => ∃ (k : Fin b.scalars) (y : Word), k.val = s1.toNat ∧ s.src2 b x = .ok y ∧
      t = s.setFlags (cmpFlags b (s.readScalar b k) y)
  | .st b d x => ∃ (k : Fin b.scalars) (a : Nat), k.val = d.toNat ∧ s.effAddr 1 x = .ok a ∧ t = s.writeMem a (s.readScalar b k)
  | .fpush r => ∃ (k : Fin 24) (q : Frontier), k.val = r.toNat ∧ s.nextQ.push (s.readR k) = .ok q ∧ t = s.setNextQ q
  | .fpop r => ∃ (k : Fin 24) (p : Word × Frontier), k.val = r.toNat ∧ s.currentQ.pop = .ok p ∧
      t = (s.setCurrentQ p.2).writeR k p.1
  | .fempty => t = s.setZ s.currentQ.isEmpty
  | .fswap => t = s.swapRoles
  | .ffill => ∃ q, s.currentQ.fill s.graph.n.toNat = .ok q ∧ t = s.setCurrentQ q
  | .vadd b d _ _ | .vsub b d _ _ | .vmul b d _ _ | .vdiv b d _ _ | .vld b d _ | .vset b d _ =>
    ∃ (k : Fin 16) (v : Lanes), k.val = d.toNat ∧ t = s.writeVector b k v
  | .vst b d x => ∃ (k : Fin 16) (a : Nat), k.val = d.toNat ∧ s.effAddr 4 x = .ok a ∧ t = s.writeMem4 a (s.readVector b k)
  | .parallel | .barrier | .lock | .unlock => t = s

/-- What an execute answers is a completion or an error taken. -/
theorem exec_eq_next {i : Instr} {s t : State} (h : exec i s = .next t) : Completes i s t ∨ ∃ c, t = s.raise c := by
  have cut : ∀ {r : Except Cause State}, conclude s r = .next t → (∀ u, r = .ok u → Completes i s u) →
      Completes i s t ∨ ∃ c, t = s.raise c := by
    intro r hr hc
    rcases (conclude_eq_next s t r).1 hr with hr | ⟨c, -, hr⟩
    · exact .inl (hc t hr)
    · exact .inr ⟨c, hr⟩
  cases i with
  | halt => exact .inl (Host.Outcome.next.inj h).symm
  | jmp a => exact cut h fun u hu => by simpa [Completes] using State.branch_eq_ok hu
  | bz a => exact cut h fun u hu => State.branch_eq_ok hu
  | bnz a => exact cut h fun u hu => State.branch_eq_ok hu
  | blt a => exact cut h fun u hu => State.branch_eq_ok hu
  | bge a => exact cut h fun u hu => State.branch_eq_ok hu
  | niter n =>
    refine cut h fun u hu => ?_
    simp only [bind_eq_ok, iterIndex_eq_ok, Except.ok.injEq] at hu
    obtain ⟨k, hk, rfl⟩ := hu
    exact ⟨k, hk, rfl⟩
  | nnext n =>
    refine cut h fun u hu => ?_
    simp only [bind_eq_ok, iterIndex_eq_ok] at hu
    obtain ⟨k, hk, -, -, lo, -, hi, -, hu⟩ := hu
    refine ⟨k, hk, ?_⟩
    split at hu
    · simp only [bind_eq_ok, Except.ok.injEq] at hu
      obtain ⟨nb, -, w, -, rfl⟩ := hu
      exact .inr ⟨nb, w, rfl⟩
    · exact .inl (by simpa using hu.symm)
  | eiter => exact .inl (Host.Outcome.next.inj h).symm
  | enext =>
    refine cut h fun u hu => ?_
    dsimp only at hu
    split at hu
    · simp at hu
    · simp only [bind_eq_ok] at hu
      obtain ⟨p, -, hu⟩ := hu
      split at hu
      · exact ⟨_, _, .inl (by simpa using hu.symm)⟩
      · simp only [bind_eq_ok, Except.ok.injEq] at hu
        obtain ⟨lo, -, nb, -, w, -, rfl⟩ := hu
        exact ⟨_, _, .inr ⟨nb, w, rfl⟩⟩
  | hase =>
    refine cut h fun u hu => ?_
    simp only [bind_eq_ok, Except.ok.injEq] at hu
    obtain ⟨-, -, z, -, rfl⟩ := hu
    exact ⟨_, rfl⟩
  | deg r =>
    refine cut h fun u hu => ?_
    simp only [bind_eq_ok, Except.ok.injEq] at hu
    obtain ⟨-, -, -, -, v, -, rfl⟩ := hu
    exact ⟨v, rfl⟩
  | add b d s1 s2 =>
    exact cut h fun u hu => by obtain ⟨k, -, -, v, hk, -, -, -, rfl⟩ := State.arith_eq_ok hu; exact ⟨k, v, hk, rfl⟩
  | sub b d s1 s2 =>
    exact cut h fun u hu => by obtain ⟨k, -, -, v, hk, -, -, -, rfl⟩ := State.arith_eq_ok hu; exact ⟨k, v, hk, rfl⟩
  | mul b d s1 s2 =>
    exact cut h fun u hu => by obtain ⟨k, -, -, v, hk, -, -, -, rfl⟩ := State.arith_eq_ok hu; exact ⟨k, v, hk, rfl⟩
  | div b d s1 s2 =>
    exact cut h fun u hu => by obtain ⟨k, -, -, v, hk, -, -, -, rfl⟩ := State.arith_eq_ok hu; exact ⟨k, v, hk, rfl⟩
  | cmp b s1 s2 =>
    refine cut h fun u hu => ?_
    simp only [bind_eq_ok, scalarIndex_eq_ok, Except.ok.injEq] at hu
    obtain ⟨k, hk, y, hy, rfl⟩ := hu
    exact ⟨k, y, hk, hy, rfl⟩
  | mov b d x =>
    refine cut h fun u hu => ?_
    simp only [bind_eq_ok, scalarIndex_eq_ok, Except.ok.injEq] at hu
    obtain ⟨k, hk, v, -, rfl⟩ := hu
    exact ⟨k, v, hk, rfl⟩
  | movc b d x =>
    refine cut h fun u hu => ?_
    simp only [bind_eq_ok, scalarIndex_eq_ok, Except.ok.injEq] at hu
    obtain ⟨k, hk, j, -, rfl⟩ := hu
    exact ⟨k, _, hk, rfl⟩
  | ld b d x =>
    refine cut h fun u hu => ?_
    simp only [bind_eq_ok, scalarIndex_eq_ok, Except.ok.injEq] at hu
    obtain ⟨k, hk, a, ha, rfl⟩ := hu
    exact ⟨k, a, hk, ha, rfl⟩
  | st b d x =>
    refine cut h fun u hu => ?_
    simp only [bind_eq_ok, scalarIndex_eq_ok, Except.ok.injEq] at hu
    obtain ⟨k, hk, a, ha, rfl⟩ := hu
    exact ⟨k, a, hk, ha, rfl⟩
  | fpush r =>
    refine cut h fun u hu => ?_
    simp only [bind_eq_ok, Except.ok.injEq] at hu
    obtain ⟨k, hk, q, hq, rfl⟩ := hu
    exact ⟨k, q, scalarIndex_eq_ok.1 hk, hq, rfl⟩
  | fpop r =>
    refine cut h fun u hu => ?_
    simp only [bind_eq_ok, Except.ok.injEq] at hu
    obtain ⟨k, hk, p, hp, rfl⟩ := hu
    exact ⟨k, p, scalarIndex_eq_ok.1 hk, hp, rfl⟩
  | fempty =>
    refine cut h fun u hu => ?_
    simp only [bind_eq_ok, Except.ok.injEq] at hu
    obtain ⟨e, he, rfl⟩ := hu
    rw [(Frontier.testEmpty_eq_ok.1 he).2]
    exact rfl
  | fswap => exact .inl (Host.Outcome.next.inj h).symm
  | ffill =>
    refine cut h fun u hu => ?_
    simp only [bind_eq_ok, Except.ok.injEq] at hu
    obtain ⟨q, hq, rfl⟩ := hu
    exact ⟨q, hq, rfl⟩
  | vadd b d s1 s2 =>
    exact cut h fun u hu => by obtain ⟨k, -, -, v, hk, -, -, -, rfl⟩ := State.lanewise_eq_ok hu; exact ⟨k, v, hk, rfl⟩
  | vsub b d s1 s2 =>
    exact cut h fun u hu => by obtain ⟨k, -, -, v, hk, -, -, -, rfl⟩ := State.lanewise_eq_ok hu; exact ⟨k, v, hk, rfl⟩
  | vmul b d s1 s2 =>
    exact cut h fun u hu => by obtain ⟨k, -, -, v, hk, -, -, -, rfl⟩ := State.lanewise_eq_ok hu; exact ⟨k, v, hk, rfl⟩
  | vdiv b d s1 s2 =>
    exact cut h fun u hu => by obtain ⟨k, -, -, v, hk, -, -, -, rfl⟩ := State.lanewise_eq_ok hu; exact ⟨k, v, hk, rfl⟩
  | vld b d x =>
    refine cut h fun u hu => ?_
    simp only [bind_eq_ok, vectorIndex_eq_ok, Except.ok.injEq] at hu
    obtain ⟨k, hk, a, -, rfl⟩ := hu
    exact ⟨k, _, hk, rfl⟩
  | vst b d x =>
    refine cut h fun u hu => ?_
    simp only [bind_eq_ok, vectorIndex_eq_ok, Except.ok.injEq] at hu
    obtain ⟨k, hk, a, ha, rfl⟩ := hu
    exact ⟨k, a, hk, ha, rfl⟩
  | vset b d x =>
    refine cut h fun u hu => ?_
    simp only [bind_eq_ok, vectorIndex_eq_ok, Except.ok.injEq] at hu
    obtain ⟨k, hk, v, -, rfl⟩ := hu
    exact ⟨k, _, hk, rfl⟩
  | vsum b d x =>
    refine cut h fun u hu => ?_
    simp only [bind_eq_ok, scalarIndex_eq_ok, vectorIndex_eq_ok, Except.ok.injEq] at hu
    obtain ⟨k, hk, j, -, rfl⟩ := hu
    exact ⟨k, _, hk, rfl⟩
  | parallel => exact .inl (Host.Outcome.next.inj h).symm
  | barrier => exact .inl (Host.Outcome.next.inj h).symm
  | lock => exact .inl (Host.Outcome.next.inj h).symm
  | unlock => exact .inl (Host.Outcome.next.inj h).symm

end Sys2Proof.Machine
end

