-- ==== Sys2Proof/Laws/Step.lean ====
section
/-! SUPPORT. What one tick can do (30_encoding.md R130): the one inversion lemma later proofs cite. -/

namespace Sys2Proof.Machine

/-- The hook point either leaves the state or stops it with HOST_ABORT. -/
theorem State.sampleAbort_cases (s : State) (abort : State → Bool) (fpc : Word) :
    s.sampleAbort abort fpc = s ∨
      (s.pstate = .running ∧ abort s = true ∧ s.sampleAbort abort fpc = s.stop .errored .hostAbort fpc) := by
  unfold State.sampleAbort
  split
  · next h => exact .inr ⟨h.1, h.2, rfl⟩
  · exact .inl rfl

/-- A tick that answers a next state was one of four: the block is stopped and stays so; PC is off the end; the word does
not decode; or the decoded instruction has executed. -/
theorem tick_eq_next {abort : State → Bool} {s t : State} (h : tick abort s = .next t) :
    (s.pstate ≠ .running ∧ t = s) ∨
    (s.pstate = .running ∧ ¬ s.pc.toNat < 8192 ∧ t = s.haltOffEnd) ∨
    (s.pstate = .running ∧ s.pc.toNat < 8192 ∧ (∃ e, decode s.fetchWord = .error e) ∧ t = s.decodeFault s.fetchWord) ∨
    (s.pstate = .running ∧ s.pc.toNat < 8192 ∧ ∃ i u, decode s.fetchWord = .ok i ∧
      exec i (s.beforeExecute s.fetchWord) = .next u ∧ t = u.countClock.sampleAbort abort s.pc) := by
  unfold tick at h
  split at h
  · next hp => exact .inl ⟨hp, by simpa using h.symm⟩
  · next hp =>
    have hp : s.pstate = .running := by simpa using hp
    split at h
    · next hpc => exact .inr (.inl ⟨hp, hpc, by simpa using h.symm⟩)
    · next hpc =>
      have hpc : s.pc.toNat < 8192 := by simpa using hpc
      split at h
      · next e he => exact .inr (.inr (.inl ⟨hp, hpc, ⟨e, he⟩, by simpa using h.symm⟩))
      · next i hi =>
        split at h
        · next u hu => exact .inr (.inr (.inr ⟨hp, hpc, i, u, hi, hu, by simpa using h.symm⟩))
        · simp at h
        · simp at h

end Sys2Proof.Machine
end

