-- ==== Sys2Proof/Laws/HostPorts.lean ====
section
/-! SUPPORT. What the debug view and the exit event can be (60_exceptions.md R383, R384), once. -/

namespace Sys2Proof.Machine

/-- The hook runs where a fetched word decodes and executes, and sees the state after the counter and before the stop. -/
theorem State.debugView_eq_some {s v : State} :
    s.debugView = some v ↔
      s.fetches = true ∧ ∃ i u, decode s.fetchWord = .ok i ∧ exec i (s.beforeExecute s.fetchWord) = .next u ∧ v = u.atHook s := by
  unfold State.debugView
  constructor
  · intro h
    split at h
    · next hf =>
      split at h
      · simp at h
      · next i hi =>
        split at h
        · next u hu => exact ⟨hf, i, u, hi, hu, by simpa using h.symm⟩
        · simp at h
        · simp at h
    · simp at h
  · rintro ⟨hf, i, u, hi, hu, rfl⟩
    simp [hf, hi, hu]

/-- At the hook point of a tick the block still runs. -/
theorem State.debugView_running {s v : State} (h : s.debugView = some v) : v.pstate = .running := by
  obtain ⟨hf, i, u, -, -, rfl⟩ := State.debugView_eq_some.1 h
  simp only [State.fetches, Bool.and_eq_true, beq_iff_eq] at hf
  exact hf.1

/-- An exit event is the report of a tick that stopped the block, and carries the state it left. -/
theorem exitEvent_eq_some {s t : State} {e : ExitEvent} :
    exitEvent s t = some e ↔ s.pstate = .running ∧ t.pstate ≠ .running ∧
      e = { status := t.pstate, errCause := t.errCause, exitPc := t.exitPc, errWord := t.errWord, isa := t.isa, a0 := t.a0,
            a1 := t.a1, a2 := t.a2, fa := t.fa, clock := t.clock, mem := t.mem } := by
  unfold exitEvent
  split
  · next h => simp [h.1, h.2, eq_comm]
  · next h => simp only [reduceCtorEq, false_iff]; exact fun h' => h ⟨h'.1, h'.2.1⟩

end Sys2Proof.Machine
end

