-- ==== Sys2Proof/Laws/PerInstr.lean ====
section
/-! SUPPORT. A statement for every instruction, one lemma per constructor. -/

namespace Sys2Proof.Laws

/-- The fields an instruction is encoded with carry its opcode's byte, and the decoder assembles the instruction from them
(30_encoding.md R113, R115). -/
def AssembleFields.Statement (i : Instr) : Prop := i.fields.op = i.opcode.byte ∧ assemble i.opcode i.fields = i

theorem AssembleFields.halt : AssembleFields.Statement .halt := ⟨rfl, rfl⟩
theorem AssembleFields.jmp (target : Word) : AssembleFields.Statement (.jmp target) := ⟨rfl, by simp [assemble, Instr.opcode, Instr.fields]⟩
theorem AssembleFields.bz (target : Word) : AssembleFields.Statement (.bz target) := ⟨rfl, by simp [assemble, Instr.opcode, Instr.fields]⟩
theorem AssembleFields.bnz (target : Word) : AssembleFields.Statement (.bnz target) := ⟨rfl, by simp [assemble, Instr.opcode, Instr.fields]⟩
theorem AssembleFields.blt (target : Word) : AssembleFields.Statement (.blt target) := ⟨rfl, by simp [assemble, Instr.opcode, Instr.fields]⟩
theorem AssembleFields.bge (target : Word) : AssembleFields.Statement (.bge target) := ⟨rfl, by simp [assemble, Instr.opcode, Instr.fields]⟩
theorem AssembleFields.niter (i : Byte) : AssembleFields.Statement (.niter i) := ⟨rfl, by simp [assemble, Instr.opcode, Instr.fields]⟩
theorem AssembleFields.nnext (i : Byte) : AssembleFields.Statement (.nnext i) := ⟨rfl, by simp [assemble, Instr.opcode, Instr.fields]⟩
theorem AssembleFields.eiter : AssembleFields.Statement .eiter := ⟨rfl, rfl⟩
theorem AssembleFields.enext : AssembleFields.Statement .enext := ⟨rfl, rfl⟩
theorem AssembleFields.hase : AssembleFields.Statement .hase := ⟨rfl, rfl⟩
theorem AssembleFields.deg (r : Byte) : AssembleFields.Statement (.deg r) := ⟨rfl, by simp [assemble, Instr.opcode, Instr.fields]⟩
theorem AssembleFields.add (b : Bank) (d s1 : Byte) (s2 : Src2) : AssembleFields.Statement (.add b d s1 s2) := ⟨rfl, by simp [assemble, Instr.opcode, Instr.fields]⟩
theorem AssembleFields.sub (b : Bank) (d s1 : Byte) (s2 : Src2) : AssembleFields.Statement (.sub b d s1 s2) := ⟨rfl, by simp [assemble, Instr.opcode, Instr.fields]⟩
theorem AssembleFields.mul (b : Bank) (d s1 : Byte) (s2 : Src2) : AssembleFields.Statement (.mul b d s1 s2) := ⟨rfl, by simp [assemble, Instr.opcode, Instr.fields]⟩
theorem AssembleFields.div (b : Bank) (d s1 : Byte) (s2 : Src2) : AssembleFields.Statement (.div b d s1 s2) := ⟨rfl, by simp [assemble, Instr.opcode, Instr.fields]⟩
theorem AssembleFields.cmp (b : Bank) (s1 : Byte) (s2 : Src2) : AssembleFields.Statement (.cmp b s1 s2) := ⟨rfl, by simp [assemble, Instr.opcode, Instr.fields]⟩
theorem AssembleFields.mov (b : Bank) (d : Byte) (s : Src1) : AssembleFields.Statement (.mov b d s) := ⟨rfl, by simp [assemble, Instr.opcode, Instr.fields]⟩
theorem AssembleFields.movc (b : Bank) (d s : Byte) : AssembleFields.Statement (.movc b d s) := ⟨rfl, by simp [assemble, Instr.opcode, Instr.fields]⟩
theorem AssembleFields.ld (b : Bank) (d : Byte) (a : Src1) : AssembleFields.Statement (.ld b d a) := ⟨rfl, by simp [assemble, Instr.opcode, Instr.fields]⟩
theorem AssembleFields.st (b : Bank) (d : Byte) (a : Src1) : AssembleFields.Statement (.st b d a) := ⟨rfl, by simp [assemble, Instr.opcode, Instr.fields]⟩
theorem AssembleFields.fpush (r : Byte) : AssembleFields.Statement (.fpush r) := ⟨rfl, by simp [assemble, Instr.opcode, Instr.fields]⟩
theorem AssembleFields.fpop (r : Byte) : AssembleFields.Statement (.fpop r) := ⟨rfl, by simp [assemble, Instr.opcode, Instr.fields]⟩
theorem AssembleFields.fempty : AssembleFields.Statement .fempty := ⟨rfl, rfl⟩
theorem AssembleFields.fswap : AssembleFields.Statement .fswap := ⟨rfl, rfl⟩
theorem AssembleFields.ffill : AssembleFields.Statement .ffill := ⟨rfl, rfl⟩
theorem AssembleFields.vadd (b : Bank) (d s1 : Byte) (s2 : Word) : AssembleFields.Statement (.vadd b d s1 s2) := ⟨rfl, by simp [assemble, Instr.opcode, Instr.fields]⟩
theorem AssembleFields.vsub (b : Bank) (d s1 : Byte) (s2 : Word) : AssembleFields.Statement (.vsub b d s1 s2) := ⟨rfl, by simp [assemble, Instr.opcode, Instr.fields]⟩
theorem AssembleFields.vmul (b : Bank) (d s1 : Byte) (s2 : Word) : AssembleFields.Statement (.vmul b d s1 s2) := ⟨rfl, by simp [assemble, Instr.opcode, Instr.fields]⟩
theorem AssembleFields.vdiv (b : Bank) (d s1 : Byte) (s2 : Word) : AssembleFields.Statement (.vdiv b d s1 s2) := ⟨rfl, by simp [assemble, Instr.opcode, Instr.fields]⟩
theorem AssembleFields.vld (b : Bank) (d : Byte) (a : Src1) : AssembleFields.Statement (.vld b d a) := ⟨rfl, by simp [assemble, Instr.opcode, Instr.fields]⟩
theorem AssembleFields.vst (b : Bank) (d : Byte) (a : Src1) : AssembleFields.Statement (.vst b d a) := ⟨rfl, by simp [assemble, Instr.opcode, Instr.fields]⟩
theorem AssembleFields.vset (b : Bank) (d : Byte) (s : Src1) : AssembleFields.Statement (.vset b d s) := ⟨rfl, by simp [assemble, Instr.opcode, Instr.fields]⟩
theorem AssembleFields.vsum (b : Bank) (d v : Byte) : AssembleFields.Statement (.vsum b d v) := ⟨rfl, by simp [assemble, Instr.opcode, Instr.fields]⟩
theorem AssembleFields.parallel : AssembleFields.Statement .parallel := ⟨rfl, rfl⟩
theorem AssembleFields.barrier : AssembleFields.Statement .barrier := ⟨rfl, rfl⟩
theorem AssembleFields.lock : AssembleFields.Statement .lock := ⟨rfl, rfl⟩
theorem AssembleFields.unlock : AssembleFields.Statement .unlock := ⟨rfl, rfl⟩

end Sys2Proof.Laws
end

