-- ==== Sys2Proof/Tests/Slice0.lean ====
section
/-! SUPPORT. The model's own tests. Part 1: each well-formedness check refuses an ill-formed term. Part 2: words written out
bit by bit from the encoding tables (30_encoding.md R110 to R119) and the examples of the instruction rules decode as the
spec says. Part 3: one tick of each instruction against the vectors of 95_test_vectors.md (their names are in the comments).
Part 4: the hypotheses of every statement are met, clause by clause, at boundary values. -/

namespace Sys2Proof.Machine.Tests

/-! ### 1. Ill-formed terms are refused -/

theorem test_wellFormed_refuses_target : (.jmp 8192 : Instr).wellFormed = false := by decide
theorem test_wellFormed_refuses_bz_target : (.bz 0xFFFFFFFF : Instr).wellFormed = false := by decide
theorem test_wellFormed_refuses_iterator : (.niter 4 : Instr).wellFormed = false := by decide
theorem test_wellFormed_refuses_nnext_iterator : (.nnext 255 : Instr).wellFormed = false := by decide
theorem test_wellFormed_refuses_deg_register : (.deg 24 : Instr).wellFormed = false := by decide
theorem test_wellFormed_refuses_int_destination : (.add .int 24 4 (.reg 5) : Instr).wellFormed = false := by decide
theorem test_wellFormed_refuses_int_source1 : (.add .int 3 24 (.imm 5) : Instr).wellFormed = false := by decide
theorem test_wellFormed_refuses_int_source2 : (.add .int 3 4 (.reg 0x118) : Instr).wellFormed = false := by decide
theorem test_wellFormed_refuses_float_destination : (.mul .float 18 4 (.reg 5) : Instr).wellFormed = false := by decide
theorem test_wellFormed_refuses_cmp_source1 : (.cmp .float 18 (.imm 0) : Instr).wellFormed = false := by decide
theorem test_wellFormed_refuses_mov_source : (.mov .float 3 (.reg 18) : Instr).wellFormed = false := by decide
theorem test_wellFormed_refuses_movc_source : (.movc .int 3 18 : Instr).wellFormed = false := by decide
theorem test_wellFormed_refuses_load_address : (.ld .float 3 (.reg 24) : Instr).wellFormed = false := by decide
theorem test_wellFormed_refuses_store_source : (.st .float 18 (.imm 0) : Instr).wellFormed = false := by decide
theorem test_wellFormed_refuses_fpush_register : (.fpush 24 : Instr).wellFormed = false := by decide
theorem test_wellFormed_refuses_vector_destination : (.vadd .int 16 1 2 : Instr).wellFormed = false := by decide
theorem test_wellFormed_refuses_vector_source1 : (.vsub .float 1 16 2 : Instr).wellFormed = false := by decide
theorem test_wellFormed_refuses_vector_source2 : (.vdiv .int 1 1 16 : Instr).wellFormed = false := by decide
theorem test_wellFormed_refuses_vset_source : (.vset .float 1 (.reg 18) : Instr).wellFormed = false := by decide
theorem test_wellFormed_refuses_vsum_vector : (.vsum .int 3 16 : Instr).wellFormed = false := by decide
theorem test_wellFormed_accepts_boundaries : (.jmp 8191 : Instr).wellFormed && (.niter 3 : Instr).wellFormed &&
    (.add .int 23 23 (.reg 23) : Instr).wellFormed && (.add .float 17 17 (.reg 17) : Instr).wellFormed &&
    (.vadd .int 15 15 15 : Instr).wellFormed = true := by decide

/-! ### 2. Decoding, each word from the encoding the spec writes out beside the instruction -/

theorem test_decode_halt : decodeTableWord 64 0x0000000000000000 = some (.halt) := by decide
theorem test_decode_jmp : decodeTableWord 64 0x0101000000000005 = some (.jmp 5) := by decide
theorem test_decode_bz : decodeTableWord 64 0x0201000000000003 = some (.bz 3) := by decide
theorem test_decode_bnz : decodeTableWord 64 0x0301000000000009 = some (.bnz 9) := by decide
theorem test_decode_blt : decodeTableWord 64 0x0401000000000002 = some (.blt 2) := by decide
theorem test_decode_bge : decodeTableWord 64 0x0501000000000004 = some (.bge 4) := by decide
theorem test_decode_niter : decodeTableWord 64 0x0600020000000000 = some (.niter 2) := by decide
theorem test_decode_nnext : decodeTableWord 64 0x0700010000000000 = some (.nnext 1) := by decide
theorem test_decode_eiter : decodeTableWord 64 0x0800000000000000 = some (.eiter) := by decide
theorem test_decode_enext : decodeTableWord 64 0x0900000000000000 = some (.enext) := by decide
theorem test_decode_hase : decodeTableWord 64 0x0A00000000000000 = some (.hase) := by decide
theorem test_decode_deg : decodeTableWord 64 0x0B00020000000000 = some (.deg 2) := by decide
theorem test_decode_add : decodeTableWord 64 0x0C00030300000004 = some (.add .int 3 3 (.reg 4)) := by decide
theorem test_decode_sub : decodeTableWord 64 0x0D01050500000001 = some (.sub .int 5 5 (.imm 1)) := by decide
theorem test_decode_mul : decodeTableWord 64 0x0E0302003F000000 = some (.mul .float 2 0 (.imm 0x3F000000)) := by decide
theorem test_decode_div : decodeTableWord 64 0x0F02000000000001 = some (.div .float 0 0 (.reg 1)) := by decide
theorem test_decode_cmp : decodeTableWord 64 0x1001000400000006 = some (.cmp .int 4 (.imm 6)) := by decide
theorem test_decode_mov : decodeTableWord 64 0x11010400FFFFFFFF = some (.mov .int 4 (.imm 0xFFFFFFFF)) := by decide
theorem test_decode_movc : decodeTableWord 64 0x1202000300000000 = some (.movc .float 0 3) := by decide
theorem test_decode_ld : decodeTableWord 64 0x1301030000000007 = some (.ld .int 3 (.imm 7)) := by decide
theorem test_decode_st : decodeTableWord 64 0x1400050400000000 = some (.st .int 5 (.reg 4)) := by decide
theorem test_decode_fpush : decodeTableWord 64 0x1500010000000000 = some (.fpush 1) := by decide
theorem test_decode_fpop : decodeTableWord 64 0x1600040000000000 = some (.fpop 4) := by decide
theorem test_decode_fempty : decodeTableWord 64 0x1700000000000000 = some (.fempty) := by decide
theorem test_decode_fswap : decodeTableWord 64 0x1800000000000000 = some (.fswap) := by decide
theorem test_decode_ffill : decodeTableWord 64 0x1900000000000000 = some (.ffill) := by decide
theorem test_decode_vadd : decodeTableWord 64 0x1A00030100000002 = some (.vadd .int 3 1 2) := by decide
theorem test_decode_vsub : decodeTableWord 64 0x1B00000100000002 = some (.vsub .int 0 1 2) := by decide
theorem test_decode_vmul : decodeTableWord 64 0x1C00030100000002 = some (.vmul .int 3 1 2) := by decide
theorem test_decode_vdiv : decodeTableWord 64 0x1D02000100000002 = some (.vdiv .float 0 1 2) := by decide
theorem test_decode_vld : decodeTableWord 64 0x1E01010000000064 = some (.vld .int 1 (.imm 100)) := by decide
theorem test_decode_vst : decodeTableWord 64 0x1F01030000000014 = some (.vst .int 3 (.imm 20)) := by decide
theorem test_decode_vset : decodeTableWord 64 0x200301003F800000 = some (.vset .float 1 (.imm 0x3F800000)) := by decide
theorem test_decode_vsum : decodeTableWord 64 0x2102000100000000 = some (.vsum .float 0 1) := by decide
theorem test_decode_parallel : decodeTableWord 64 0x2200000000000000 = some (.parallel) := by decide
theorem test_decode_barrier : decodeTableWord 64 0x2300000000000000 = some (.barrier) := by decide
theorem test_decode_lock : decodeTableWord 64 0x2403FFFFFFFFFFFF = some (.lock) := by decide
theorem test_decode_unlock : decodeTableWord 64 0x2500000000000000 = some (.unlock) := by decide
theorem test_decode_first_illegal : decode 0x2600000000000000#64 = .error (.unknownOpcode 0x26) := by decide
theorem test_decode_bits_of_add : decode (0x0C#8 ++ 0b00000011#8 ++ 0x03#8 ++ 0x04#8 ++ 0x3E800000#32) =
    .ok (.add .float 3 4 (.imm 0x3E800000)) := by decide
theorem test_encode_is_the_spec_word : encode (.sub .int 5 5 (.imm 1)) = 0x0D01050500000001#64 := by decide

/-! ### 3. One tick against the spec's vectors -/

/-- The graph G6 of 95_test_vectors.md. -/
def g6 : Csr :=
  { n := 6, rowIndex := [0, 3, 6, 10, 13, 15, 18], colIndex := [1, 2, 5, 0, 2, 3, 0, 1, 3, 5, 1, 2, 4, 3, 5, 0, 2, 4],
    values := [7, 9, 14, 7, 10, 15, 9, 10, 11, 2, 15, 11, 6, 6, 9, 14, 2, 9] }

/-- The graph of V-G10: row 1 is empty. -/
def g3 : Csr := { n := 3, rowIndex := [0, 1, 1, 2], colIndex := [2, 0], values := [9, 8] }

/-- The broken graph of V-G25: row 0 runs past col_index. -/
def broken : Csr := { n := 1, rowIndex := [0, 5], colIndex := [1], values := [3] }

/-- Reset with some integer registers, some float registers, FLAGS and a graph. -/
def start (r : List (Fin 24 × Word)) (f : List (Fin 18 × Word)) (flags : BitVec 8) (g : Csr) : State :=
  let s := r.foldl (fun s p => s.writeR p.1 p.2) State.reset
  let s := f.foldl (fun s p => s.writeF p.1 p.2) s
  { s with flags := flags, graph := g }

/-- Reset with Vr1 and Vr2, Vf1 and Vf2. -/
def lanes (a b c d : Lanes) : State := (((State.reset.writeVR 1 a).writeVR 2 b).writeVF 1 c).writeVF 2 d

/-- A QUEUE holding the counters front .. back-1, with the values given for its first slots. -/
def queue (front back : BitVec 64) (vs : List Word) : Frontier :=
  { kind := .queue, front := front, back := back, slot := Memory.writeList [] 0 vs }

/-- Reset with two frontiers, Q[0] current, and a graph. -/
def queues (c n : Frontier) (g : Csr) : State := { State.reset with q := #v[c, n], graph := g }

/-- One tick with the word at PC passes a check. -/
def tickIs (s : State) (w : Nat) (check : State → Bool) : Bool :=
  match step (s.withFetchWord 64 w) with
  | .next t => check t
  | _ => false

/-- The block went on. -/
def went (t : State) : Bool := t.pstate == .running && t.clock == 1

/-- The block stopped with an error at the start PC (0). -/
def err (t : State) (code : BitVec 8) : Bool :=
  t.pstate == .errored && t.errCause == code && t.exitPc == 0 && t.pc == 1 && t.clock == 1

/- V-C1 -/
theorem test_halt :
    tickIs ({ State.reset with pc := 9 }) 0 (fun t => t.pstate == .halted && t.exitPc == 9 && t.pc == 10 && t.clock == 1) = true := by decide
/- V-C3 -/
theorem test_jmp_last_word :
    tickIs (start [] [] 0 Csr.empty) 0x0101000000001FFF (fun t => went t && t.pc == 8191) = true := by decide
/- V-C4 -/
theorem test_jmp_past_end :
    tickIs (start [] [] 0 Csr.empty) 0x0101000000002000 (fun t => err t 2) = true := by decide
/- V-C6 -/
theorem test_bz_target_checked_when_not_taken :
    tickIs (start [] [] 0 Csr.empty) 0x0201000000002328 (fun t => err t 2) = true := by decide
/- V-C7 -/
theorem test_bz_taken :
    tickIs (start [] [] 1 Csr.empty) 0x0201000000000007 (fun t => went t && t.pc == 7) = true := by decide
/- V-C8 -/
theorem test_bnz_not_taken :
    tickIs (start [] [] 1 Csr.empty) 0x0301000000000007 (fun t => went t && t.pc == 1) = true := by decide
/- V-C9 -/
theorem test_bnz_taken :
    tickIs (start [] [] 4 Csr.empty) 0x0301000000000007 (fun t => went t && t.pc == 7) = true := by decide
/- V-C10 -/
theorem test_blt_reads_n :
    tickIs (start [] [] 3 Csr.empty) 0x0401000000000002 (fun t => went t && t.pc == 2) = true := by decide
/- V-C11 -/
theorem test_bge_taken :
    tickIs (start [] [] 5 Csr.empty) 0x0501000000000004 (fun t => went t && t.pc == 4) = true := by decide
/- V-C12 -/
theorem test_bge_not_taken :
    tickIs (start [] [] 2 Csr.empty) 0x0501000000000004 (fun t => went t && t.pc == 1) = true := by decide
/- V-G8 -/
theorem test_niter :
    tickIs ({ State.reset with niter := #v[1, 2, 5, 3] }) 0x0600020000000000 (fun t => went t && t.niter == #v[1, 2, 0, 3]) = true := by decide
/- V-G9 -/
theorem test_niter_index :
    tickIs (start [] [] 0 Csr.empty) 0x0600040000000000 (fun t => err t 4) = true := by decide
/- V-G1, first tick -/
theorem test_nnext_edge :
    tickIs (start [] [] 0 g6) 0x0700000000000000 (fun t => went t && t.r[1] == 1 && t.r[2] == 7 && t.niter[0] == 1 && t.flags == 0) = true := by decide
/- V-G6 -/
theorem test_nnext_iterator_before_node :
    tickIs (start [(0, 0xFFFFFFFF)] [] 0 g6) 0x0700070000000000 (fun t => err t 4) = true := by decide
/- V-G10 -/
theorem test_eiter :
    tickIs ({ start [(0, 5)] [] 0 g3 with eiter := 3 }) 0x0800000000000000 (fun t => went t && t.r[0] == 0 && t.eiter == 0) = true := by decide
/- V-G10, second ENEXT -/
theorem test_enext_skips_empty_row :
    tickIs ({ start [(0, 0)] [] 1 g3 with eiter := 1 }) 0x0900000000000000 (fun t => went t && t.r[0] == 2 && t.r[1] == 0 && t.r[2] == 8 && t.eiter == 1 && t.flags == 0) = true := by decide
/- V-G13 -/
theorem test_enext_past_end :
    tickIs (start [(0, 9)] [] 0 g6) 0x0900000000000000 (fun t => went t && t.r[0] == 9 && t.flags == 1) = true := by decide
/- V-G14 -/
theorem test_hase_hit_keeps_p :
    tickIs (start [(0, 0), (1, 1)] [] 4 g6) 0x0A00000000000000 (fun t => went t && t.flags == 4) = true := by decide
/- V-G16 -/
theorem test_hase_miss_no_range_check :
    tickIs (start [(0, 0), (1, 100)] [] 4 g6) 0x0A00000000000000 (fun t => went t && t.flags == 5) = true := by decide
/- V-G21 -/
theorem test_deg :
    tickIs (start [(2, 4)] [] 0 g6) 0x0B00020000000000 (fun t => went t && t.r[2] == 2) = true := by decide
/- V-G22 -/
theorem test_deg_of_zero_register :
    tickIs (start [(20, 4)] [] 0 g6) 0x0B00140000000000 (fun t => went t && t.r[2] == 3 && t.r[20] == 4) = true := by decide
/- V-S1 -/
theorem test_add_wraps :
    tickIs (start [(4, 0x7FFFFFFF), (5, 1)] [] 0 Csr.empty) 0x0C00030400000005 (fun t => went t && t.r[3] == 0x80000000) = true := by decide
/- V-S15 -/
theorem test_add_float :
    tickIs (start [] [(4, 0x3FC00000), (5, 0x40100000)] 0 Csr.empty) 0x0C02030400000005 (fun t => went t && t.f[3] == 0x40700000) = true := by decide
/- V-S2 -/
theorem test_sub_wraps :
    tickIs (start [(4, 0x80000000), (5, 1)] [] 0 Csr.empty) 0x0D00030400000005 (fun t => went t && t.r[3] == 0x7FFFFFFF) = true := by decide
/- V-S16 -/
theorem test_sub_float :
    tickIs (start [] [(4, 0x3F800000), (5, 0x3F800000)] 0 Csr.empty) 0x0D02030400000005 (fun t => went t && t.f[3] == 0) = true := by decide
/- V-S4 -/
theorem test_mul_low_bits :
    tickIs (start [(4, 0x7FFFFFFF), (5, 2)] [] 0 Csr.empty) 0x0E00030400000005 (fun t => went t && t.r[3] == 0xFFFFFFFE) = true := by decide
/- V-S25 -/
theorem test_mul_float_overflow :
    tickIs (start [] [(4, 0x7F7FC99E), (5, 0x41200000)] 0 Csr.empty) 0x0E02030400000005 (fun t => went t && t.f[3] == 0x7F800000) = true := by decide
/- V-S19 -/
theorem test_div_float_by_negative_zero :
    tickIs (start [] [(4, 0x3F800000), (5, 0x80000000)] 0 Csr.empty) 0x0F02030400000005 (fun t => went t && t.f[3] == 0xFF800000) = true := by decide
/- V-S13 -/
theorem test_div_by_zero :
    tickIs (start [(4, 5)] [] 0 Csr.empty) 0x0F01030400000000 (fun t => err t 5 && t.r[3] == 0) = true := by decide
/- V-S31 -/
theorem test_cmp_exact_difference :
    tickIs (start [(4, 0x80000000), (5, 1)] [] 0 Csr.empty) 0x1000000400000005 (fun t => went t && t.flags == 2) = true := by decide
/- V-S37 -/
theorem test_cmp_float_subnormal :
    tickIs (start [] [(4, 1)] 0 Csr.empty) 0x1002000400000005 (fun t => went t && t.flags == 4) = true := by decide
/- V-S51 -/
theorem test_mov_immediate :
    tickIs (start [] [] 0 Csr.empty) 0x11010400FFFFFFFF (fun t => went t && t.r[4] == 0xFFFFFFFF) = true := by decide
/- V-S24 -/
theorem test_mov_float_nan_bits :
    tickIs (start [] [] 0 Csr.empty) 0x110304007FC00001 (fun t => went t && t.f[4] == 0x7FC00001 && t.fa == 0x7FC00001) = true := by decide
/- V-S40 -/
theorem test_movc_rounds_to_even :
    tickIs (start [(4, 16777217)] [] 0 Csr.empty) 0x1202030400000000 (fun t => went t && t.f[3] == 0x4B800000) = true := by decide
/- V-S45 -/
theorem test_movc_truncates :
    tickIs (start [] [(4, 0xBFC00000)] 0 Csr.empty) 0x1200030400000000 (fun t => went t && t.r[3] == 0xFFFFFFFF) = true := by decide
/- V-M9 -/
theorem test_ld_into_its_address_register :
    tickIs ({ start [(4, 5)] [] 0 Csr.empty with mem := [(5, 77)] }) 0x1300040400000000 (fun t => went t && t.r[4] == 77) = true := by decide
/- V-M4 -/
theorem test_ld_negative_address :
    tickIs (start [(4, 0xFFFFFFFF), (3, 99)] [] 0 Csr.empty) 0x1300030400000000 (fun t => err t 3 && t.r[3] == 99) = true := by decide
/- V-M7 -/
theorem test_st_zero_register :
    tickIs ({ start [(20, 9)] [] 0 Csr.empty with mem := [(3, 5)] }) 0x1401140000000003 (fun t => went t && t.mem == []) = true := by decide
/- V-M10 -/
theorem test_st_past_end :
    tickIs (start [(3, 1), (4, 65536)] [] 0 Csr.empty) 0x14000304FFFFFFFF (fun t => err t 3 && t.mem == []) = true := by decide
/- R287's example -/
theorem test_fpush :
    tickIs (start [(1, 4)] [] 0 Csr.empty) 0x1500010000000000 (fun t => went t && t.q[1].contents == [4] && t.q[0].contents == []) = true := by decide
/- R288's example -/
theorem test_fpop :
    tickIs (queues (queue 0 2 [3, 5]) (queue 0 0 []) Csr.empty) 0x1600040000000000 (fun t => went t && t.r[4] == 3 && t.q[0].contents == [5]) = true := by decide
/- V-Q1, last tick -/
theorem test_fpop_empty :
    tickIs (start [(6, 5)] [] 0 Csr.empty) 0x1600060000000000 (fun t => err t 10 && t.r[6] == 5) = true := by decide
/- V-Q2 -/
theorem test_fempty_keeps_p :
    tickIs (start [] [] 4 Csr.empty) 0x1700000000000000 (fun t => went t && t.flags == 5) = true := by decide
/- V-Q9 -/
theorem test_fempty_kind :
    tickIs (queues { queue 0 0 [] with kind := .set } (queue 0 0 []) Csr.empty) 0x1700000000000000 (fun t => err t 11) = true := by decide
/- V-Q3 -/
theorem test_fswap :
    tickIs (queues (queue 0 1 [7]) (queue 0 2 [1, 2]) Csr.empty) 0x1800000000000000 (fun t => went t && t.cur == 1 && t.q[1].contents == [1, 2] && t.q[0].contents == []) = true := by decide
/- V-Q5 -/
theorem test_ffill :
    tickIs (start [] [] 0 g6) 0x1900000000000000 (fun t => went t && t.q[0].contents == [0, 1, 2, 3, 4, 5]) = true := by decide
/- V-Q6 -/
theorem test_ffill_without_room :
    tickIs (queues (queue 0 1020 []) (queue 0 0 []) g6) 0x1900000000000000 (fun t => err t 9 && t.q[0].back == 1020) = true := by decide
/- V-V1 -/
theorem test_vadd :
    tickIs (lanes ⟨1, 2, 3, 4⟩ ⟨10, 20, 30, 40⟩ ⟨0, 0, 0, 0⟩ ⟨0, 0, 0, 0⟩) 0x1A00030100000002 (fun t => went t && t.vr[3] == ⟨11, 22, 33, 44⟩) = true := by decide
/- V-V9 -/
theorem test_vadd_float :
    tickIs (lanes ⟨0, 0, 0, 0⟩ ⟨0, 0, 0, 0⟩ ⟨0x3FC00000, 0x3FC00000, 0x3FC00000, 0x3FC00000⟩ ⟨0x3E800000, 0xBFC00000, 0x40000000, 0x80000000⟩) 0x1A02000100000002 (fun t => went t && t.vf[0] == ⟨0x3FE00000, 0, 0x40600000, 0x3FC00000⟩) = true := by decide
/- V-V3 -/
theorem test_vsub :
    tickIs (lanes ⟨5, 5, 5, 5⟩ ⟨1, 2, 3, 4⟩ ⟨0, 0, 0, 0⟩ ⟨0, 0, 0, 0⟩) 0x1B00000100000002 (fun t => went t && t.vr[0] == ⟨4, 3, 2, 1⟩) = true := by decide
/- V-V4 -/
theorem test_vmul :
    tickIs (lanes ⟨3, 3, 3, 3⟩ ⟨4, 4, 4, 4⟩ ⟨0, 0, 0, 0⟩ ⟨0, 0, 0, 0⟩) 0x1C00030100000002 (fun t => went t && t.vr[3] == ⟨12, 12, 12, 12⟩) = true := by decide
/- V-V5 -/
theorem test_vdiv :
    tickIs (lanes ⟨7, 0xFFFFFFF9, 7, 0xFFFFFFF9⟩ ⟨2, 2, 0xFFFFFFFE, 0xFFFFFFFE⟩ ⟨0, 0, 0, 0⟩ ⟨0, 0, 0, 0⟩) 0x1D00000100000002 (fun t => went t && t.vr[0] == ⟨3, 0xFFFFFFFD, 0xFFFFFFFD, 3⟩) = true := by decide
/- V-V6 -/
theorem test_vdiv_by_zero_lane :
    tickIs (lanes ⟨1, 1, 1, 1⟩ ⟨1, 1, 0, 1⟩ ⟨0, 0, 0, 0⟩ ⟨0, 0, 0, 0⟩) 0x1D00000100000002 (fun t => err t 5 && t.vr[0] == ⟨0, 0, 0, 0⟩) = true := by decide
/- V-V12 -/
theorem test_vld :
    tickIs ({ State.reset with mem := [(100, 1), (101, 2), (102, 3), (103, 4)] }) 0x1E01010000000064 (fun t => went t && t.vr[1] == ⟨1, 2, 3, 4⟩) = true := by decide
/- V-V14 -/
theorem test_vld_across_the_end :
    tickIs (start [] [] 0 Csr.empty) 0x1E0101000000FFFD (fun t => err t 3) = true := by decide
/- V-V18 -/
theorem test_vst :
    tickIs (lanes ⟨10, 11, 12, 13⟩ ⟨0, 0, 0, 0⟩ ⟨0, 0, 0, 0⟩ ⟨0, 0, 0, 0⟩) 0x1F01010000000014 (fun t => went t && t.mem == [(20, 10), (21, 11), (22, 12), (23, 13)]) = true := by decide
/- V-V19 -/
theorem test_vst_across_the_end :
    tickIs (lanes ⟨12, 12, 12, 12⟩ ⟨0, 0, 0, 0⟩ ⟨0, 0, 0, 0⟩ ⟨0, 0, 0, 0⟩) 0x1F0101000000FFFD (fun t => err t 3 && t.mem == []) = true := by decide
/- V-V20 -/
theorem test_vset :
    tickIs (start [] [] 0 Csr.empty) 0x2001010000000003 (fun t => went t && t.vr[1] == ⟨3, 3, 3, 3⟩) = true := by decide
/- V-V23 -/
theorem test_vset_float :
    tickIs (start [] [(4, 0xC0000000)] 0 Csr.empty) 0x2002010400000000 (fun t => went t && t.vf[1] == ⟨0xC0000000, 0xC0000000, 0xC0000000, 0xC0000000⟩) = true := by decide
/- V-V25 -/
theorem test_vsum_accumulates :
    tickIs ((lanes ⟨12, 12, 12, 12⟩ ⟨0, 0, 0, 0⟩ ⟨0, 0, 0, 0⟩ ⟨0, 0, 0, 0⟩).writeR 3 100) 0x2100030100000000 (fun t => went t && t.r[3] == 148) = true := by decide
/- V-V28 -/
theorem test_vsum_float_in_order :
    tickIs (lanes ⟨0, 0, 0, 0⟩ ⟨0, 0, 0, 0⟩ ⟨0x3F800000, 0x33800000, 0x33800000, 0⟩ ⟨0, 0, 0, 0⟩) 0x2102000100000000 (fun t => went t && t.f[0] == 0x3F800000) = true := by decide
/- V-P1 -/
theorem test_parallel :
    tickIs ({ State.reset with pc := 4 }) 0x2200000000000000 (fun t => went t && t.pc == 5 && t.r == State.reset.r && t.mem == []) = true := by decide
/- V-P2 -/
theorem test_barrier :
    tickIs ({ State.reset with pc := 4 }) 0x2300000000000000 (fun t => went t && t.pc == 5 && t.r == State.reset.r && t.mem == []) = true := by decide
/- V-P5 -/
theorem test_lock :
    tickIs ({ State.reset with pc := 4 }) 0x2403FFFFFFFFFFFF (fun t => went t && t.pc == 5 && t.r == State.reset.r && t.mem == [] && t.a0 == 0xFF && t.fa == 0xFFFFFFFF) = true := by decide
/- V-P4 -/
theorem test_unlock :
    tickIs ({ State.reset with pc := 4 }) 0x2500000000000000 (fun t => went t && t.pc == 5 && t.r == State.reset.r && t.mem == []) = true := by decide
/- V-D1 -/
theorem test_decode_error :
    tickIs ({ State.reset with pc := 3 }) 0x2600000000000000 (fun t => t.pstate == .errored && t.errCause == 1 && t.exitPc == 3 && t.pc == 4 && t.clock == 0 && t.errWord == 0x2600000000000000 && t.isa == 0) = true := by decide
/- V-D7, last tick -/
theorem test_host_abort :
    tickIs ({ State.reset with hostAbort := true, clock := 99 }) 0x0101000000000000 (fun t => t.pstate == .errored && t.errCause == 12 && t.exitPc == 0 && t.clock == 100) = true := by decide
/- V-D8 -/
theorem test_host_abort_not_on_halt :
    tickIs ({ State.reset with hostAbort := true }) 0 (fun t => t.pstate == .halted && t.errCause == 0) = true := by decide
/- V-D5 -/
theorem test_off_the_end :
    step { State.reset with pc := 8192 } = .next { State.reset with pc := 8192, pstate := .halted, exitPc := 8192 } := by rfl

/- The sign table of R220 (V-S8 among its lines) and -2^31 / -1. -/
theorem test_int_quotient_signs :
    intQuotient 7 2 = 3 ∧ intQuotient 0xFFFFFFF9 2 = 0xFFFFFFFD ∧ intQuotient 7 0xFFFFFFFE = 0xFFFFFFFD ∧
    intQuotient 0xFFFFFFF9 0xFFFFFFFE = 3 ∧ intQuotient 0x80000000 0xFFFFFFFF = 0x80000000 := by decide

/- The corner cases of R221, R223 and R224: a value over either zero by the sign rule, -0.0 + -0.0, s - s. -/
theorem test_float_special_values :
    fdiv32 0x3F800000 0 = 0x7F800000 ∧ fdiv32 0xBF800000 0 = 0xFF800000 ∧ fdiv32 0xBF800000 0x80000000 = 0x7F800000 ∧
    fadd32 0x80000000 0x80000000 = 0x80000000 ∧ fsub32 0xC0200000 0xC0200000 = 0 := by decide

/-! ### 4. The hypotheses of every statement are met -/

/-- A graph of one node with one edge to itself, n one below row_len. -/
def g1 : Csr := { n := 1, rowIndex := [0, 1], colIndex := [0], values := [7] }

/-- A graph whose row_index is shorter than n + 1. -/
def short : Csr := { n := 2, rowIndex := [0, 1], colIndex := [0], values := [7] }

/-- A state whose next word is `w`. -/
def placed (w : Nat) : State := State.reset.withFetchWord 64 w

theorem g3_premise : g3.Premise where
  rowLen := by decide
  rising := by decide
  first := by rintro v ⟨⟩; decide
  last := by rintro v ⟨⟩; decide
  sorted := by
    intro u hu row h
    have hu : u < 3 := hu
    interval_cases u <;> (cases h; decide)
  valLen := by decide

theorem reset_inv : State.reset.Inv :=
  ⟨by decide, by decide, by decide, by decide, by decide, by decide, by unfold Frontier.Inv; decide,
    by unfold State.ReportInv; decide⟩

theorem witness_StepKeepsInvariant : ∃ t, State.reset.Inv ∧ step State.reset = .next t := ⟨_, reset_inv, rfl⟩

theorem witness_ResetPortIsIdempotent :
    ∃ s t : State, s ≠ t ∧ s.prog = t.prog ∧ s.graph = t.graph := ⟨State.reset, State.reset.advancePc, by decide, rfl, rfl⟩

/-- Each memory filled to its last place and one past it, and a graph past either capacity. -/
theorem witness_LoadReplacesMemoriesAndGraphOnly :
    Image.accepted ⟨List.replicate 8192 0, [], [], [], List.replicate 65536 0⟩ ∧
    ¬ Image.accepted ⟨List.replicate 8193 0, [], [], [], []⟩ ∧
    8192 < (List.replicate 8193 (0 : ProgWord)).length ∧ 65536 < (List.replicate 65537 (0 : Word)).length ∧
    Config.maxNodes < (List.replicate (Config.maxNodes + 2) (0 : Word)).length - 1 ∧
    Config.maxEdges < (List.replicate (Config.maxEdges + 1) (0 : Word)).length := by
  refine ⟨⟨by rw [List.length_replicate], by rw [List.length_replicate], by decide, Nat.zero_le _, Nat.zero_le _,
    Nat.zero_le _⟩, fun h => ?_, ?_, ?_, ?_, ?_⟩
  · have h : (List.replicate 8193 (0 : ProgWord)).length ≤ 8192 := h.1
    rw [List.length_replicate] at h
    omega
  all_goals rw [List.length_replicate]; omega

theorem witness_PackedFieldsDecodeBack : (0x03 : Byte).getLsbD 0 = true ∧ (0x03 : Byte).getLsbD 1 = true := by decide

theorem witness_DecodeErrorIffOpcodeOutsideMap :
    0x26 ≤ (BitVec.extractLsb' 56 8 0x2600000000000000#64).toNat ∧ (BitVec.extractLsb' 56 8 0x25FFFFFFFFFFFFFF#64).toNat < 0x26 ∧
    (placed 0x2600000000000000).pstate = .running ∧ (placed 0x2600000000000000).pc.toNat < 8192 ∧
    0x26 ≤ ((Memory.read (placed 0x2600000000000000).prog (placed 0x2600000000000000).pc.toNat).extractLsb' 56 8).toNat := by
  decide

theorem witness_ReservedFlagBitsAreIgnored :
    (0x0CFC030400000005#64 &&& 0xFF03FFFFFFFFFFFF#64) = (0x0C00030400000005#64 &&& 0xFF03FFFFFFFFFFFF#64) := by decide

theorem witness_TickFollowsThePipeline_and_StepRunsTheDecodedInstruction :
    ({ State.reset with pstate := .halted } : State).pstate ≠ .running ∧
    (∃ s : State, s.pstate = .running ∧ ¬ s.pc.toNat < 8192) ∧
    (∃ e, decode (Memory.read (placed 0xFF00000000000000).prog 0) = .error e) ∧
    ∃ t, decode (Memory.read (placed 0x0101000000000000).prog 0) = .ok (.jmp 0) ∧
      exec (.jmp 0) (placed 0x0101000000000000) = .next t :=
  ⟨by decide, ⟨{ State.reset with pc := 8192 }, by decide, by decide⟩, ⟨_, rfl⟩, ⟨_, rfl, rfl⟩⟩

theorem witness_StoppedBlockStaysStopped : ({ State.reset with pstate := .errored } : State).pstate ≠ .running := by decide

/-- For ClockCountsExecutedInstructions, DecoderWritesItsLatchesOnly and GraphAndProgramAreNeverWritten. -/
theorem witness_next_state_of_a_step : ∃ t, step (placed 0x2200000000000000) = .next t ∧ t.pstate = .running := ⟨_, rfl, rfl⟩

/-- The line high and low at a CONTINUE, a HALT (RUNNING and no report at its hook point, V-D8), a tick that stops with an
execute, off the end and on a decode error, one that goes on and one of a stopped block. -/
theorem witness_HostAbortAndHooks :
    (∃ v, ({ placed 0x0101000000000000 with hostAbort := true } : State).debugView = some v ∧ v.pstate = .running ∧
      v.hostAbort = true) ∧
    (∃ v, (placed 0x0101000000000000).debugView = some v ∧ v.hostAbort = false) ∧
    (∃ v u, (placed 0).debugView = some v ∧ exec .halt ((placed 0).beforeExecute 0) = .next u ∧ u.pstate ≠ .running ∧
      v.pstate = .running ∧ v.exitPc = 0 ∧ v.clock = 1) ∧
    (∃ t u, step (placed 0) = .next t ∧ step t = .next u ∧ (exitEvent (placed 0) t).isSome = true ∧ t.pstate ≠ .running) ∧
    (∃ s : State, s.pstate = .running ∧ ¬ s.pc.toNat < 8192) ∧
    ((placed 0x2600000000000000).pstate = .running ∧ (placed 0x2600000000000000).pc.toNat < 8192 ∧
      0x26 ≤ ((Memory.read (placed 0x2600000000000000).prog (placed 0x2600000000000000).pc.toNat).extractLsb' 56 8).toNat) ∧
    ∃ t, step (placed 0x2200000000000000) = .next t ∧ t.pstate = .running :=
  ⟨⟨_, rfl, rfl, rfl⟩, ⟨_, rfl, rfl⟩, ⟨_, _, rfl, rfl, by decide, rfl, rfl, rfl⟩, ⟨_, _, rfl, rfl, rfl, by decide⟩,
    ⟨{ State.reset with pc := 8192 }, by decide, by decide⟩, by decide, _, rfl, rfl⟩

theorem witness_OnlyBranchesWritePc : ∃ t, exec (.jmp 8191) State.reset = .next t ∧ t.pc ≠ State.reset.pc := ⟨_, rfl, by decide⟩

theorem witness_OnlyNamedInstructionsWriteFlags :
    (∃ t, exec .hase (start [(0, 0)] [] 0 g6) = .next t) ∧ (∃ t, exec .eiter State.reset = .next t) ∧
    Instr.eiter.opcode ≠ .nnext ∧ Instr.eiter.opcode ≠ .enext ∧ Instr.eiter.opcode ≠ .hase ∧ Instr.eiter.opcode ≠ .fempty ∧
    Instr.eiter.opcode ≠ .cmp := ⟨⟨_, rfl⟩, ⟨_, rfl⟩, by decide, by decide, by decide, by decide, by decide⟩

theorem witness_OnlyConditionalBranchesReadFlags :
    ∃ t, exec .fempty State.reset = .next t ∧ Instr.fempty.opcode ≠ .bz ∧ Instr.fempty.opcode ≠ .bnz ∧
      Instr.fempty.opcode ≠ .blt ∧ Instr.fempty.opcode ≠ .bge := ⟨_, rfl, by decide, by decide, by decide, by decide⟩

theorem witness_ErrorsArePrecise :
    ∃ t, State.reset.pstate = .running ∧ exec (.fpop 0) State.reset = .next t ∧ t.pstate = .errored := ⟨_, rfl, rfl, rfl⟩

theorem witness_FieldErrorsIffIllFormed :
    (Instr.fpush 24).wellFormed = false ∧ (Instr.niter 4).wellFormed = false ∧ (Instr.bz 8192).wellFormed = false ∧
    ∃ t, (Instr.fpop 23).wellFormed = true ∧ State.reset.pstate = .running ∧ exec (.fpop 23) State.reset = .next t ∧
      t.pstate = .errored := ⟨by decide, by decide, by decide, _, by decide, rfl, rfl, rfl⟩

/-- A cell below a store, and an instruction that neither halts nor errs. -/
theorem witness_ExecWritesOnlyItsFootprint :
    (∃ t, exec (.vst .int 1 (.imm 65532)) State.reset = .next t ∧ Part.cell 65531 ≠ .stopReport ∧
      ¬ (Instr.vst .int 1 (.imm 65532)).mayWrite State.reset (.cell 65531)) ∧
    ∃ t, exec .eiter State.reset = .next t ∧ Instr.eiter ≠ .halt ∧ ∀ code, t ≠ State.reset.inError code := by
  refine ⟨⟨_, rfl, by decide, ?_⟩, _, rfl, by decide, fun code h => ?_⟩
  · rintro ⟨base, k, hb, hk, h⟩
    have : State.reset.effAddr 4 (.imm 65532) = .ok 65532 := rfl
    rw [this] at hb
    cases hb
    simp only [Part.cell.injEq] at h
    omega
  · have h : PState.running = .errored := congrArg State.pstate h
    exact absurd h (by decide)

theorem witness_ZeroRegistersReadZeroAndAreUnobservable :
    (State.reset.writeR 20 9).maskZeroCells = (State.reset.writeF 17 9).maskZeroCells ∧
    State.reset.writeR 20 9 ≠ State.reset.writeF 17 9 ∧
    (∃ t t', exec (.mov .int 3 (.reg 20)) (State.reset.writeR 20 9) = .next t ∧
      exec (.mov .int 3 (.reg 20)) (State.reset.writeF 17 9) = .next t') ∧
    ∃ t t', step (State.reset.writeR 20 9) = .next t ∧ step (State.reset.writeF 17 9) = .next t' :=
  ⟨by decide, by decide, ⟨_, _, rfl, rfl⟩, ⟨_, _, rfl, rfl⟩⟩

/-- The byte of every opcode's words, for the EncodedAs clause of every instruction's statement. -/
theorem witness_EncodedAs : ∀ o : Opcode, (packFields ⟨o.byte, 0, 0, 0, 0⟩).extractLsb' 56 8 = o.byte := by
  intro o; cases o <;> decide

theorem witness_HaltFollowsItsRule :
    (placed 0x00FFFFFFFFFFFFFF).pstate = .running ∧ (placed 0x00FFFFFFFFFFFFFF).pc.toNat < 8192 ∧
    (Memory.read (placed 0x00FFFFFFFFFFFFFF).prog (placed 0x00FFFFFFFFFFFFFF).pc.toNat).extractLsb' 56 8 = 0x00#8 := by decide

theorem witness_BranchesFollowTheirRules : (8191 : Word).toNat < 8192 ∧ ¬ (8192 : Word).toNat < 8192 := by decide

theorem witness_CompareThenBranchFollowsSignedOrder :
    ∃ t, (start [(4, 0x80000000)] [] 0 g1).src1 .int (.reg 4) = .ok 0x80000000 ∧
      (start [(4, 0x80000000)] [] 0 g1).src2 .int (.imm 0x7FFFFFFF) = .ok 0x7FFFFFFF ∧ (8191 : Word).toNat < 8192 ∧
      exec (.cmp .int 4 (.imm 0x7FFFFFFF)) (start [(4, 0x80000000)] [] 0 g1) = .next t :=
  ⟨_, by decide, by decide, by decide, rfl⟩

theorem witness_NiterFollowsItsRule : (3 : Byte).toNat < 4 ∧ ¬ (4 : Byte).toNat < 4 := by decide

/-- A node at n, the last node, a missing row entry, the end of a row, slots outside the arrays, an edge. -/
theorem witness_NnextFollowsItsRule :
    ¬ ((start [(0, 1)] [] 0 g1).readR 0).toInt < (start [(0, 1)] [] 0 g1).graph.n.toNat ∧
    ((start [(0, 1)] [] 0 short).readR 0).toInt = (1 : Nat) ∧ short.rowIndex[1 + 1]? = none ∧ 1 < short.n.toNat ∧
    (g1.rowIndex[0]? = some 0 ∧ g1.rowIndex[0 + 1]? = some 1 ∧ (1 : Word).toInt ≤ (0 : Word).toInt + (1 : Word).toNat) ∧
    (broken.rowIndex[0 + 1]? = some 5 ∧ (0 : Word).toInt + (1 : Word).toNat < (5 : Word).toInt ∧ broken.colIndex[1]? = none) ∧
    ((0 : Word).toInt + (0 : Word).toNat < (1 : Word).toInt ∧ g1.colIndex[0]? = some 0 ∧ g1.values[0]? = some 7) := by
  decide

/-- A negative node, a node at n, all rows exhausted, a missing row entry, a slot outside, the next populated row. -/
theorem witness_EnextFollowsItsRule :
    ((start [(0, 0x80000000)] [] 0 g3).readR 0).toInt < 0 ∧
    (((start [(0, 3)] [] 0 g3).readR 0).toInt = (3 : Nat) ∧ g3.n.toNat ≤ 3) ∧
    (((start [(0, 1)] [] 0 g3).readR 0).toInt = (1 : Nat) ∧ 1 < g3.n.toNat ∧ g3.rowIndex[1]? = some 1 ∧
      g3.rowIndex[1 + 1]? = some 1 ∧ (1 : Word).toInt ≤ (1 : Word).toInt + (0 : Nat)) ∧
    (((start [(0, 2)] [] 0 g3).readR 0).toInt = (2 : Nat) ∧ 2 < g3.n.toNat ∧ g3.rowIndex[2]? = some 1 ∧
      g3.rowIndex[2 + 1]? = some 2 ∧ (2 : Word).toInt ≤ (1 : Word).toInt + (1 : Nat)) ∧
    (short.rowIndex[1 + 1]? = none ∧ 1 < short.n.toNat) ∧
    (broken.rowIndex[0 + 1]? = some 5 ∧ (0 : Word).toInt + (1 : Nat) < (5 : Word).toInt ∧ broken.colIndex[1]? = none) ∧
    ((1 : Word).toInt + (0 : Nat) < (2 : Word).toInt ∧ g3.colIndex[1]? = some 0 ∧ g3.values[1]? = some 8) := by
  decide

theorem witness_EdgeWalkEmitsEveryEdgeOnce :
    ∃ t, (start [] [] 0 g3).graph.Premise ∧ (start [] [] 0 g3).graph.n.toNat < 2 ^ 31 ∧
      exec .eiter (start [] [] 0 g3) = .next t ∧ g3.colIndex[1]? = some 0 ∧ g3.values[1]? = some 8 :=
  ⟨_, g3_premise, by decide, rfl, by decide, by decide⟩

/-- A node at n, a missing row entry, a row outside col_index, a row inside it with a hit and with a miss. -/
theorem witness_HaseFollowsItsRule :
    ¬ ((start [(0, 1)] [] 0 g1).readR 0).toInt < g1.n.toNat ∧
    (((start [(0, 1)] [] 0 short).readR 0).toInt = (1 : Nat) ∧ 1 < short.n.toNat ∧ short.rowIndex[1 + 1]? = none) ∧
    (broken.rowIndex[0 + 1]? = some 5 ∧ (0 : Word).toInt < (5 : Word).toInt ∧ (broken.colIndex.length : Int) < (5 : Word).toInt) ∧
    (g1.rowIndex[0 + 1]? = some 1 ∧ (1 : Word).toInt ≤ g1.colIndex.length) ∧
    (∃ j : Nat, (0 : Word).toInt ≤ j ∧ (j : Int) < (1 : Word).toInt ∧ g1.colIndex[j]? = some ((start [(1, 0)] [] 0 g1).readR 1)) ∧
    ¬ ∃ j : Nat, (0 : Word).toInt ≤ j ∧ (j : Int) < (1 : Word).toInt ∧
      g1.colIndex[j]? = some ((start [(1, 9)] [] 0 g1).readR 1) := by
  refine ⟨by decide, by decide, by decide, by decide, ⟨0, by decide, by decide, by decide⟩, ?_⟩
  rintro ⟨j, -, hj, h⟩
  have : j = 0 := by have : (1 : Word).toInt = 1 := by decide
                     omega
  subst this
  exact absurd h (by decide)

theorem witness_DegFollowsItsRule :
    ¬ (24 : Byte).toNat < 24 ∧ (23 : Byte).toNat < 24 ∧
    ¬ ((start [(23, 1)] [] 0 g1).readR 23).toInt < g1.n.toNat ∧ ((start [(23, 0)] [] 0 g1).readR 23).toInt = (0 : Nat) ∧
    0 < g1.n.toNat ∧ g1.rowIndex[0]? = some 0 ∧ g1.rowIndex[0 + 1]? = some 1 := by decide

theorem witness_CsrBoundsOnlyWhenPremiseBroken :
    ∃ t, (start [] [] 0 g3).graph.Premise ∧ (start [] [] 0 g3).errCause ≠ 8 ∧
      Sys2Proof.core.run 2 (start [] [] 0 g3) = .next t := ⟨_, g3_premise, by decide, rfl⟩

/-- The register-field bounds of every scalar and vector form: AddSubMulFollowTheirRules, DivFollowsItsRule, CmpFollowsItsRule,
MovFollowsItsRule, MovcFollowsItsRule, LdFollowsItsRule, StFollowsItsRule, FpushFollowsItsRule, FpopFollowsItsRule,
VaddVsubVmulFollowTheirRules, VdivFollowsItsRule, VldFollowsItsRule, VstFollowsItsRule, VsetFollowsItsRule,
VsumFollowsItsRule. -/
theorem witness_register_fields :
    (23 : Byte).toNat < 24 ∧ ¬ (24 : Byte).toNat < Bank.int.scalars ∧ (17 : Byte).toNat < 18 ∧
    ¬ (18 : Byte).toNat < Bank.float.scalars ∧ (15 : Byte).toNat < 16 ∧ ¬ (16 : Byte).toNat < 16 ∧ (23 : Word).toNat < 24 ∧
    (17 : Word).toNat < 18 ∧ (15 : Word).toNat < 16 ∧ ¬ (16 : Word).toNat < 16 ∧
    (∃ i : Word, Src2.reg 24 = .reg i ∧ ¬ i.toNat < Bank.int.scalars) ∧
    (∃ i : Byte, Src1.reg 18 = .reg i ∧ ¬ i.toNat < Bank.float.scalars) :=
  ⟨by decide, by decide, by decide, by decide, by decide, by decide, by decide, by decide, by decide, by decide,
    ⟨24, rfl, by decide⟩, ⟨18, rfl, by decide⟩⟩

theorem witness_DivFollowsItsRule :
    State.reset.src1 .int (.reg 23) = .ok 0 ∧ State.reset.src2 .int (.imm 0xFFFFFFFF) = .ok 0xFFFFFFFF ∧
    State.reset.src2 .int (.reg 20) = .ok 0 ∧ State.reset.src1 .float (.reg 17) = .ok 0 ∧
    State.reset.src2 .float (.reg 17) = .ok 0 ∧ (0xFFFFFFFF : Word) ≠ 0 := by decide

theorem witness_CmpFollowsItsRule :
    State.reset.src1 .int (.reg 23) = .ok 0 ∧ State.reset.src2 .int (.imm 0x80000000) = .ok 0x80000000 ∧
    State.reset.src1 .float (.reg 17) = .ok 0 ∧ State.reset.src2 .float (.imm 0x7FC00000) = .ok 0x7FC00000 := by decide

theorem witness_FloatCompareOrdersFiniteValues :
    (start [] [(4, 1)] 0 g1).src1 .float (.reg 4) = .ok 1 ∧ (start [] [(4, 1)] 0 g1).src2 .float (.imm 0x7F7FFFFF) = .ok 0x7F7FFFFF ∧
    f32IsFinite 1 = true ∧ f32IsFinite 0x7F7FFFFF = true := by decide

/-- F2I at its bounds: -2^31 converts, 2^31 and an infinity do not. -/
theorem witness_MovcFollowsItsRule :
    (f32IsFinite 0xCF000000 = true ∧ -2 ^ 31 ≤ (f32Value 0xCF000000).tdiv (2 ^ 149) ∧
      (f32Value 0xCF000000).tdiv (2 ^ 149) ≤ 2 ^ 31 - 1) ∧
    f32IsFinite 0x7F800000 = false ∧ 2 ^ 31 - 1 < (f32Value 0x4F000000).tdiv (2 ^ 149) ∧
    (f32Value 0xCF000001).tdiv (2 ^ 149) < -2 ^ 31 := by decide

theorem witness_FloatResultsAreCorrectlyRounded :
    f32IsFinite 0x7F7FFFFF = true ∧ f32IsFinite 0x00000001 = true ∧ f32Value 0x00000001 ≠ 0 ∧
    2 * (f32Value 0x7F7FFFFF + f32Value 1).natAbs < (2 ^ 25 - 1) * 2 ^ 253 * 1 ∧
    ¬ 2 * (f32Value 0x7F7FFFFF + f32Value 0x7F7FFFFF).natAbs < (2 ^ 25 - 1) * 2 ^ 253 * 1 ∧
    (f32IsFinite 0x80000000 = true ∧ f32Value 0x80000000 + f32Value 0x80000000 = 0 ∧ f32Negative 0x80000000 = true) ∧
    (f32Value 0x80000000 - f32Value 0x00000000 = 0 ∧ f32Negative 0x00000000 = false) ∧
    f32Value 0x3F800000 - f32Value 0x3F800000 = 0 := by decide

/-- A NaN operand, infinities of one sign and of two, an infinity against a zero and against a least value on either side,
0/0 and x/0, a register holding 0. -/
theorem witness_FloatSpecialValuesAndZeroSigns :
    f32IsNaN 0x7FC00000 = true ∧ f32IsNaN 0xFF800001 = true ∧
    (f32IsInf 0x7F800000 = true ∧ f32IsInf 0xFF800000 = true ∧ f32Negative 0x7F800000 ≠ f32Negative 0xFF800000) ∧
    (f32IsFinite 0x80000000 = true ∧ f32Value 0x80000000 = 0) ∧ (f32IsFinite 0x00000001 = true ∧ f32Value 0x00000001 ≠ 0) ∧
    State.reset.readR ⟨(23 : Byte).toNat, by decide⟩ = 0 := by decide

/-- Addresses at both ends of data memory, for one cell and for four: LdFollowsItsRule, StFollowsItsRule, VldFollowsItsRule,
VstFollowsItsRule. -/
theorem witness_loads_and_stores :
    State.reset.addressOf (.reg 24) = none ∧ State.reset.addressOf (.imm 0xFFFFFFFF) = some (-1) ∧
    State.reset.addressOf (.imm 65536) = some 65536 ∧ State.reset.addressOf (.imm 65535) = some ((65535 : Nat) : Int) ∧
    State.reset.addressOf (.reg 23) = some ((0 : Nat) : Int) ∧ (65535 : Nat) < 65536 ∧
    State.reset.addressOf (.imm 65532) = some ((65532 : Nat) : Int) ∧ 65532 + 4 ≤ 65536 ∧
    State.reset.addressOf (.imm 65533) = some 65533 ∧ ¬ (65533 : Int) + 4 ≤ 65536 := by decide

theorem witness_StoreThenLoadMovesThePattern :
    ∃ t u, exec (.st .int 23 (.imm 65535)) (start [(23, 0xC0200000)] [] 0 g1) = .next t ∧
      exec (.ld .float 0 (.imm 65535)) t = .next u ∧ (65535 : Word).toNat < 65536 ∧
      (23 : Fin Bank.int.scalars).val = (23 : Byte).toNat ∧ (0 : Fin Bank.float.scalars).val = (0 : Byte).toNat :=
  ⟨_, _, rfl, rfl, by decide, by decide, by decide⟩

/-- A frontier of another kind, a full one, one with a single free entry, an empty one, one entry; counters that wrap:
FpushFollowsItsRule, FpopFollowsItsRule, FemptyFollowsItsRule, FfillFollowsItsRule. -/
theorem witness_frontier_instructions :
    ({ queue 0 0 [] with kind := .set } : Frontier).kind ≠ .queue ∧ (queue 0 1024 []).size = 1024 ∧
    (queue 0 1023 []).size ≠ 1024 ∧ (queue 7 7 []).front = (queue 7 7 []).back ∧ (queue 7 8 []).front ≠ (queue 7 8 []).back ∧
    (queue 0xFFFFFFFFFFFFFFFF 1 []).size = 2 ∧ (queue 0 0 []).kind = .queue ∧
    1024 < (queue 0 1019 []).size + g6.n.toNat ∧ (queue 0 1018 []).size + g6.n.toNat ≤ 1024 := by decide

theorem witness_FrontierRefinesBoundedList :
    listRunOps [.push 3, .push 5, .pop, .pop] (queue 9 9 []).contents = .ok ([3, 5], []) ∧
    listRunOps [.pop] (queue 9 9 []).contents = .error .frontierEmpty ∧ (queue 9 9 []).size ≤ 1024 ∧
    (queue 9 9 []).kind = .queue ∧
    ∃ t u v, (start [(4, 3)] [] 0 g1).nextQ.kind = .queue ∧ (start [(4, 3)] [] 0 g1).nextQ.isEmpty = true ∧
      exec (.fpush 4) (start [(4, 3)] [] 0 g1) = .next t ∧ exec .fswap t = .next u ∧ exec (.fpop 6) u = .next v :=
  ⟨by decide, by decide, by decide, by decide, _, _, _, rfl, rfl, rfl, rfl, rfl⟩

theorem witness_VdivFollowsItsRule :
    (∃ k, (⟨1, 1, 0, 1⟩ : Lanes).lane k = 0) ∧ ∀ k, (⟨1, 2, 0xFFFFFFFF, 0x80000000⟩ : Lanes).lane k ≠ 0 := by decide

theorem witness_MulticoreOpcodesAreNoOps :
    (placed 0x22FFFFFFFFFFFFFF).pstate = .running ∧ (placed 0x2500000000000000).pc.toNat < 8192 ∧
    (placed 0x2500000000000000).hostAbort = false ∧
    0x22 ≤ (fieldsOf (Memory.read (placed 0x22FFFFFFFFFFFFFF).prog 0)).op.toNat ∧
    (fieldsOf (Memory.read (placed 0x2500000000000000).prog 0)).op.toNat ≤ 0x25 := by decide

end Sys2Proof.Machine.Tests
end

/-! ### The frame of the named operations -/

namespace Sys2Proof.Machine

/-! #### Parts: sameness as a relation -/

theorem Part.Same.refl (s : State) (p : Part) : p.Same s s := by cases p <;> simp [Part.Same]

theorem Part.Same.trans {p : Part} {s t u : State} (hst : p.Same s t) (htu : p.Same t u) : p.Same s u := by
  cases p
  case latches =>
    obtain ⟨h1, h2, h3, h4, h5⟩ := hst
    obtain ⟨g1, g2, g3, g4, g5⟩ := htu
    exact ⟨g1.trans h1, g2.trans h2, g3.trans h3, g4.trans h4, g5.trans h5⟩
  case stopReport =>
    obtain ⟨h1, h2, h3⟩ := hst
    obtain ⟨g1, g2, g3⟩ := htu
    exact ⟨g1.trans h1, g2.trans h2, g3.trans h3⟩
  all_goals exact Eq.trans htu hst

/-! #### What each named operation writes (10_state.md R30 to R49) -/

theorem Part.same_writeR (s : State) (i : Fin 24) (v : Word) {p : Part} (h : p ≠ .intReg i) : p.Same s (s.writeR i v) := by
  cases p
  case intReg j =>
    have hij : i.val ≠ j.val := fun e => h (congrArg Part.intReg (Fin.ext e).symm)
    simp [Part.Same, hij]
  all_goals simp [Part.Same, State.readMem, State.flagZ]

theorem Part.same_writeF (s : State) (i : Fin 18) (v : Word) {p : Part} (h : p ≠ .floatReg i) : p.Same s (s.writeF i v) := by
  cases p
  case floatReg j =>
    have hij : i.val ≠ j.val := fun e => h (congrArg Part.floatReg (Fin.ext e).symm)
    simp [Part.Same, hij]
  all_goals simp [Part.Same, State.readMem, State.flagZ]

theorem Part.same_writeVR (s : State) (i : Fin 16) (v : Lanes) {p : Part} (h : p ≠ .intVec i) :
    p.Same s (s.writeVR i v) := by
  cases p
  case intVec j =>
    have hij : i.val ≠ j.val := fun e => h (congrArg Part.intVec (Fin.ext e).symm)
    simp [Part.Same, State.writeVR, hij]
  all_goals simp [Part.Same, State.readMem, State.flagZ]

theorem Part.same_writeVF (s : State) (i : Fin 16) (v : Lanes) {p : Part} (h : p ≠ .floatVec i) :
    p.Same s (s.writeVF i v) := by
  cases p
  case floatVec j =>
    have hij : i.val ≠ j.val := fun e => h (congrArg Part.floatVec (Fin.ext e).symm)
    simp [Part.Same, State.writeVF, hij]
  all_goals simp [Part.Same, State.readMem, State.flagZ]

/-- A scalar destination: the register its field names is the only part written (R36). -/
theorem Part.same_writeScalar (s : State) {b : Bank} {k : Fin b.scalars} {d : Byte} (v : Word) (hk : k.val = d.toNat)
    {p : Part} (h : ¬ scalarPart b d p) : p.Same s (s.writeScalar b k v) := by
  cases b with
  | int => exact Part.same_writeR s k v fun e => h ⟨k, hk, e⟩
  | float => exact Part.same_writeF s k v fun e => h ⟨k, hk, e⟩

/-- A vector destination: the register its field names is the only part written (R36). -/
theorem Part.same_writeVector (s : State) {b : Bank} {k : Fin 16} {d : Byte} (v : Lanes) (hk : k.val = d.toNat)
    {p : Part} (h : ¬ vectorPart b d p) : p.Same s (s.writeVector b k v) := by
  cases b with
  | int => exact Part.same_writeVR s k v fun e => h ⟨k, hk, e⟩
  | float => exact Part.same_writeVF s k v fun e => h ⟨k, hk, e⟩

theorem Part.same_setPc (s : State) (a : Word) {p : Part} (h : p ≠ .pc) : p.Same s (s.setPc a) := by
  cases p
  case pc => exact absurd rfl h
  all_goals simp [Part.Same, State.readMem, State.flagZ]

theorem Part.same_writeNiter (s : State) (k : Fin 4) (v : Word) {p : Part} (h : p ≠ .niter k) :
    p.Same s (s.writeNiter k v) := by
  cases p
  case niter j =>
    have hkj : k.val ≠ j.val := fun e => h (congrArg Part.niter (Fin.ext e).symm)
    simp [Part.Same, hkj]
  all_goals simp [Part.Same, State.readMem, State.flagZ]

theorem Part.same_writeEiter (s : State) (v : Word) {p : Part} (h : p ≠ .eiter) : p.Same s (s.writeEiter v) := by
  cases p
  case eiter => exact absurd rfl h
  all_goals simp [Part.Same, State.readMem, State.flagZ]

theorem Part.same_setZ (s : State) (z : Bool) {p : Part} (h : p ≠ .flagZ) : p.Same s (s.setZ z) := by
  cases p
  case flagZ => exact absurd rfl h
  case otherFlags => exact State.setZ_other_bits s z
  all_goals simp [Part.Same, State.readMem]

theorem Part.same_setFlags (s : State) (v : BitVec 8) {p : Part} (hz : p ≠ .flagZ) (ho : p ≠ .otherFlags) :
    p.Same s (s.setFlags v) := by
  cases p
  case flagZ => exact absurd rfl hz
  case otherFlags => exact absurd rfl ho
  all_goals simp [Part.Same, State.readMem]

/-- A one-cell store writes the cell its effective address names and no other part (43_memory_ops.md R262). -/
theorem Part.same_writeMem {s : State} {x : Src1} {a : Nat} (v : Word) (ha : s.effAddr 1 x = .ok a) {p : Part}
    (h : ¬ storedPart s 1 x p) : p.Same s (s.writeMem a v) := by
  cases p
  case cell c =>
    have hc : c ≠ a := fun e => h ⟨a, 0, ha, by omega, by simp [e]⟩
    simp [Part.Same, State.readMem_writeMem, hc]
  all_goals simp [Part.Same, State.flagZ]

/-- A four-cell store writes the cells its effective address names and no other part (45_vector.md R327). -/
theorem Part.same_writeMem4 {s : State} {x : Src1} {a : Nat} (v : Lanes) (ha : s.effAddr 4 x = .ok a) {p : Part}
    (h : ¬ storedPart s 4 x p) : p.Same s (s.writeMem4 a v) := by
  cases p
  case cell c =>
    refine State.readMem_writeMem4_other s a c v fun hc => h ⟨a, c - a, ha, by omega, ?_⟩
    rw [Nat.add_sub_of_le hc.1]
  all_goals simp [Part.Same, State.flagZ]

theorem Part.same_setCurrentQ (s : State) (q : Frontier) {p : Part} (h : p ≠ .frontier s.cur) :
    p.Same s (s.setCurrentQ q) := by
  cases p
  case frontier j =>
    have hj : s.cur.val ≠ j.val := fun e => h (congrArg Part.frontier (Fin.ext e).symm)
    simp [Part.Same, hj]
  all_goals simp [Part.Same, State.readMem, State.flagZ]

theorem Part.same_setNextQ (s : State) (q : Frontier) {p : Part} (h : p ≠ .frontier (otherRole s.cur)) :
    p.Same s (s.setNextQ q) := by
  cases p
  case frontier j =>
    have hj : (otherRole s.cur).val ≠ j.val := fun e => h (congrArg Part.frontier (Fin.ext e).symm)
    simp [Part.Same, hj]
  all_goals simp [Part.Same, State.readMem, State.flagZ]

theorem Part.same_swapRoles (s : State) {p : Part} (hc : p ≠ .cur) (hq : p ≠ .frontier s.cur) : p.Same s s.swapRoles := by
  cases p
  case cur => exact absurd rfl hc
  case frontier j =>
    have hj : s.cur.val ≠ j.val := fun e => hq (congrArg Part.frontier (Fin.ext e).symm)
    simp [Part.Same, hj]
  all_goals simp [Part.Same, State.readMem, State.flagZ]

/-- Recording a stop writes the stop report alone (60_exceptions.md R373). -/
theorem Part.same_stop (s : State) (ps : PState) (c : Cause) (x : Word) {p : Part} (h : p ≠ .stopReport) :
    p.Same s (s.stop ps c x) := by
  cases p
  case stopReport => exact absurd rfl h
  all_goals simp [Part.Same, State.readMem, State.flagZ]

/-! #### The frame of an execute (70_reset_and_hazards.md R407) -/

/-- A completed branch has written at most PC. -/
theorem Part.same_branch (s : State) (a : Word) (taken : Bool) {p : Part} (h : p ≠ .pc) :
    p.Same s (if taken then s.setPc a else s) := by
  split
  · exact Part.same_setPc s a h
  · exact Part.Same.refl s p

/-- A completed instruction leaves every part outside its footprint as it was. -/
theorem Completes.same_of_not_mayWrite {i : Instr} {s t : State} (h : Completes i s t) {p : Part}
    (hp : ¬ i.mayWrite s p) : p.Same s t := by
  cases i with
  | halt => obtain rfl : t = s.halt := h; exact Part.same_stop s _ _ _ hp
  | jmp a => obtain ⟨-, rfl⟩ := h; exact Part.same_setPc s a hp
  | bz a => obtain ⟨-, rfl⟩ := h; exact Part.same_branch s a _ hp
  | bnz a => obtain ⟨-, rfl⟩ := h; exact Part.same_branch s a _ hp
  | blt a => obtain ⟨-, rfl⟩ := h; exact Part.same_branch s a _ hp
  | bge a => obtain ⟨-, rfl⟩ := h; exact Part.same_branch s a _ hp
  | niter n => obtain ⟨k, hk, rfl⟩ := h; exact Part.same_writeNiter s k 0 fun e => hp ⟨k, hk, e⟩
  | nnext n =>
    simp only [Instr.mayWrite, not_or] at hp
    obtain ⟨hnbr, hval, hz, hn⟩ := hp
    obtain ⟨k, hk, rfl | ⟨nb, w, rfl⟩⟩ := h
    · exact Part.same_setZ s true hz
    · have hk' : p ≠ .niter k := fun e => hn ⟨k, hk, e⟩
      exact (((Part.same_writeR s _ nb hnbr).trans (Part.same_writeR _ _ w hval)).trans
        (Part.same_writeNiter _ k _ hk')).trans (Part.same_setZ _ false hz)
  | eiter =>
    simp only [Instr.mayWrite, not_or] at hp
    obtain rfl : t = (s.writeEiter 0).writeR rnode 0 := h
    exact (Part.same_writeEiter s 0 hp.1).trans (Part.same_writeR _ _ 0 hp.2)
  | enext =>
    simp only [Instr.mayWrite, not_or] at hp
    obtain ⟨hnode, hnbr, hval, he, hz⟩ := hp
    obtain ⟨u, e, rfl | ⟨nb, w, rfl⟩⟩ := h
    · exact ((Part.same_writeR s _ u hnode).trans (Part.same_writeEiter _ e he)).trans (Part.same_setZ _ true hz)
    · exact ((((Part.same_writeR s _ u hnode).trans (Part.same_writeR _ _ nb hnbr)).trans
        (Part.same_writeR _ _ w hval)).trans (Part.same_writeEiter _ e he)).trans (Part.same_setZ _ false hz)
  | hase => obtain ⟨z, rfl⟩ := h; exact Part.same_setZ s z hp
  | fempty => obtain rfl : t = s.setZ s.currentQ.isEmpty := h; exact Part.same_setZ s _ hp
  | deg r => obtain ⟨v, rfl⟩ := h; exact Part.same_writeR s _ v hp
  | cmp b s1 x =>
    simp only [Instr.mayWrite, not_or] at hp
    obtain ⟨k, y, -, -, rfl⟩ := h
    exact Part.same_setFlags s _ hp.1 hp.2
  | ld b d x => obtain ⟨k, a, hk, -, rfl⟩ := h; exact Part.same_writeScalar s _ hk hp
  | st b d x => obtain ⟨k, a, -, ha, rfl⟩ := h; exact Part.same_writeMem _ ha hp
  | fpush r => obtain ⟨k, q, -, -, rfl⟩ := h; exact Part.same_setNextQ s q hp
  | fpop r =>
    simp only [Instr.mayWrite, not_or] at hp
    obtain ⟨k, x, hk, -, rfl⟩ := h
    exact (Part.same_setCurrentQ s x.2 hp.1).trans (Part.same_writeScalar (b := .int) _ x.1 hk hp.2)
  | fswap =>
    simp only [Instr.mayWrite, not_or] at hp
    obtain rfl : t = s.swapRoles := h
    exact Part.same_swapRoles s hp.1 hp.2
  | ffill => obtain ⟨q, -, rfl⟩ := h; exact Part.same_setCurrentQ s q hp
  | vst b d x => obtain ⟨k, a, -, ha, rfl⟩ := h; exact Part.same_writeMem4 _ ha hp
  | add | sub | mul | div | mov | movc | vsum => obtain ⟨k, v, hk, rfl⟩ := h; exact Part.same_writeScalar s v hk hp
  | vadd | vsub | vmul | vdiv | vld | vset => obtain ⟨k, v, hk, rfl⟩ := h; exact Part.same_writeVector s v hk hp
  | parallel | barrier | lock | unlock => obtain rfl : t = s := h; exact Part.Same.refl t p

/-- Whether it completes or takes an error, an execute leaves every part outside its footprint, the stop report apart. -/
theorem exec_same_of_not_mayWrite {i : Instr} {s t : State} {p : Part} (h : exec i s = .next t) (hr : p ≠ .stopReport)
    (hp : ¬ i.mayWrite s p) : p.Same s t := by
  rcases exec_eq_next h with hc | ⟨c, rfl⟩
  · exact hc.same_of_not_mayWrite hp
  · exact Part.same_stop s _ c _ hr

/-! #### Who may write a part (10_state.md R39, R41) -/

/-- A register of one of the four banks. -/
def Part.isRegister : Part → Bool
  | .intReg _ | .floatReg _ | .intVec _ | .floatVec _ => true
  | _ => false

/-- A cell of data memory. -/
def Part.isCell : Part → Bool
  | .cell _ => true
  | _ => false

theorem not_scalarPart {b : Bank} {d : Byte} {p : Part} (h : p.isRegister = false) : ¬ scalarPart b d p := by
  cases b <;> (rintro ⟨j, -, rfl⟩; exact absurd h (by simp [Part.isRegister]))

theorem not_vectorPart {b : Bank} {d : Byte} {p : Part} (h : p.isRegister = false) : ¬ vectorPart b d p := by
  cases b <;> (rintro ⟨j, -, rfl⟩; exact absurd h (by simp [Part.isRegister]))

theorem not_storedPart {s : State} {len : Nat} {x : Src1} {p : Part} (h : p.isCell = false) : ¬ storedPart s len x p := by
  rintro ⟨base, k, -, -, rfl⟩
  exact absurd h (by simp [Part.isCell])

/-- Who may write which part that is neither a register nor a cell of data memory. -/
theorem mayWrite_control {i : Instr} {s : State} {p : Part} (h : i.mayWrite s p) (hr : p.isRegister = false)
    (hc : p.isCell = false) :
    (p = .stopReport ∧ i = .halt) ∨
    (p = .pc ∧ ∃ a : Word, i = .jmp a ∨ i = .bz a ∨ i = .bnz a ∨ i = .blt a ∨ i = .bge a) ∨
    (p = .flagZ ∧
      (i.opcode = .nnext ∨ i.opcode = .enext ∨ i.opcode = .hase ∨ i.opcode = .fempty ∨ i.opcode = .cmp)) ∨
    (p = .otherFlags ∧ i.opcode = .cmp) ∨ (∃ k, p = .niter k) ∨ p = .eiter ∨ (∃ j, p = .frontier j) ∨ p = .cur := by
  cases i with
  | halt => exact .inl ⟨h, rfl⟩
  | jmp a | bz a | bnz a | blt a | bge a => exact .inr (.inl ⟨h, a, by simp⟩)
  | niter n => obtain ⟨k, -, rfl⟩ := h; simp
  | nnext n =>
    rcases h with rfl | rfl | rfl | ⟨k, -, rfl⟩
    · cases hr
    · cases hr
    · simp [Instr.opcode]
    · simp
  | eiter =>
    rcases h with rfl | rfl
    · simp
    · cases hr
  | enext =>
    rcases h with rfl | rfl | rfl | rfl | rfl
    · cases hr
    · cases hr
    · cases hr
    · simp
    · simp [Instr.opcode]
  | hase | fempty => obtain rfl : p = .flagZ := h; simp [Instr.opcode]
  | deg r => obtain rfl : p = .intReg rval := h; cases hr
  | cmp b s1 x => rcases h with rfl | rfl <;> simp [Instr.opcode]
  | st | vst => exact absurd h (not_storedPart hc)
  | fpush r => obtain rfl : p = .frontier (otherRole s.cur) := h; simp
  | fpop r =>
    rcases h with rfl | h
    · simp
    · exact absurd h (not_scalarPart (b := .int) hr)
  | fswap => rcases h with rfl | rfl <;> simp
  | ffill => obtain rfl : p = .frontier s.cur := h; simp
  | add | sub | mul | div | mov | movc | ld | vsum => exact absurd h (not_scalarPart hr)
  | vadd | vsub | vmul | vdiv | vld | vset => exact absurd h (not_vectorPart hr)
  | parallel | barrier | lock | unlock => exact h.elim

/-- Only HALT has the stop report in its footprint. -/
theorem mayWrite_stopReport {i : Instr} {s : State} (h : i.mayWrite s .stopReport) : i = .halt := by
  simpa using mayWrite_control h rfl rfl

/-- Only the branches have PC in their footprint. -/
theorem mayWrite_pc {i : Instr} {s : State} (h : i.mayWrite s .pc) :
    ∃ a : Word, i = .jmp a ∨ i = .bz a ∨ i = .bnz a ∨ i = .blt a ∨ i = .bge a := by
  simpa using mayWrite_control h rfl rfl

/-- Only NNEXT, ENEXT, HASE, FEMPTY and CMP have Z in their footprint. -/
theorem mayWrite_flagZ {i : Instr} {s : State} (h : i.mayWrite s .flagZ) :
    i.opcode = .nnext ∨ i.opcode = .enext ∨ i.opcode = .hase ∨ i.opcode = .fempty ∨ i.opcode = .cmp := by
  simpa using mayWrite_control h rfl rfl

/-- Only CMP has the other bits of FLAGS in its footprint. -/
theorem mayWrite_otherFlags {i : Instr} {s : State} (h : i.mayWrite s .otherFlags) : i.opcode = .cmp := by
  simpa using mayWrite_control h rfl rfl

/-- No instruction has ERR_WORD in its footprint: DECODE alone writes it (60_exceptions.md R373). -/
theorem not_mayWrite_errWord (i : Instr) (s : State) : ¬ i.mayWrite s .errWord :=
  fun h => by simpa using mayWrite_control h rfl rfl

/-- A completed instruction other than HALT leaves PSTATE, ERR_CAUSE and EXIT_PC. -/
theorem Completes.same_stopReport {i : Instr} {s t : State} (h : Completes i s t) (hi : i ≠ .halt) :
    Part.stopReport.Same s t :=
  h.same_of_not_mayWrite fun hp => hi (mayWrite_stopReport hp)

/-! #### The statements about the frame, PC and FLAGS -/

/-- Settles O24: the frame of a completion, and an error taken writes the stop report alone. -/
theorem execWritesOnlyItsFootprint : Obligations.ExecWritesOnlyItsFootprint := by
  refine ⟨fun i s t p h hr hp => exec_same_of_not_mayWrite h hr hp, fun i s t h hi hne => ?_⟩
  rcases exec_eq_next h with hc | ⟨c, rfl⟩
  · exact hc.same_stopReport hi
  · exact absurd rfl (hne c.code)

/-- A completed branch had a legal target, and left PC or set it to the target. -/
theorem Completes.pc_of_branch {i : Instr} {s t : State} {a : Word} (h : Completes i s t)
    (hi : i = .jmp a ∨ i = .bz a ∨ i = .bnz a ∨ i = .blt a ∨ i = .bge a) :
    a.toNat < 8192 ∧ (t.pc = a ∨ t.pc = s.pc) := by
  have cut : ∀ taken : Bool, (a.toNat < 8192 ∧ t = if taken then s.setPc a else s) →
      a.toNat < 8192 ∧ (t.pc = a ∨ t.pc = s.pc) := by
    rintro taken ⟨ha, rfl⟩
    cases taken
    · exact ⟨ha, .inr rfl⟩
    · exact ⟨ha, .inl rfl⟩
  rcases hi with rfl | rfl | rfl | rfl | rfl
  · exact cut true h
  · exact cut _ h
  · exact cut _ h
  · exact cut _ h
  · exact cut _ h

/-- Settles O19: PC is outside every other footprint, and a branch checks its target before it completes. -/
theorem onlyBranchesWritePc : Obligations.OnlyBranchesWritePc := by
  intro i s t h
  by_cases hp : i.mayWrite s .pc
  · obtain ⟨a, hi⟩ := mayWrite_pc hp
    rcases exec_eq_next h with hc | ⟨c, rfl⟩
    · obtain ⟨ha, hpc | hpc⟩ := hc.pc_of_branch hi
      · exact .inr ⟨a, hi, ha, hpc⟩
      · exact .inl hpc
    · exact .inl rfl
  · exact .inl (exec_same_of_not_mayWrite (p := .pc) h (by simp) hp)

/-- FLAGS is its bit Z and its other seven bits. -/
theorem flags_eq_of_parts {s t : State} (hz : Part.flagZ.Same s t) (ho : Part.otherFlags.Same s t) : t.flags = s.flags := by
  have join : ∀ v : BitVec 8, v = (v &&& 0xFE#8) ||| (if v.getLsbD 0 then 0x01#8 else 0x00#8) := by decide
  calc t.flags = (t.flags &&& 0xFE#8) ||| (if t.flagZ then 0x01#8 else 0x00#8) := join t.flags
    _ = (s.flags &&& 0xFE#8) ||| (if s.flagZ then 0x01#8 else 0x00#8) := by rw [show _ = _ from hz, show _ = _ from ho]
    _ = s.flags := (join s.flags).symm

/-- Settles O20: which footprints hold Z and which the other bits of FLAGS. -/
theorem onlyNamedInstructionsWriteFlags : Obligations.OnlyNamedInstructionsWriteFlags := by
  intro i s t h
  have other (hi : i.opcode ≠ .cmp) : Part.otherFlags.Same s t :=
    exec_same_of_not_mayWrite h (by simp) fun hp => hi (mayWrite_otherFlags hp)
  refine ⟨fun hi => other ?_, fun hn he hh hf hc => flags_eq_of_parts ?_ (other hc)⟩
  · rcases hi with hi | hi | hi | hi <;> simp [hi]
  · refine exec_same_of_not_mayWrite h (by simp) fun hp => ?_
    rcases mayWrite_flagZ hp with hi | hi | hi | hi | hi <;> contradiction

end Sys2Proof.Machine

/-! ### Operand-field errors and the errors of a well-formed instruction (60_exceptions.md R376) -/

namespace Sys2Proof.Machine

/-- The causes an execute can raise after its operand fields have passed their checks (60_exceptions.md R371). -/
def Cause.operational : Cause → Bool
  | .memAddress | .divZero | .nodeRange | .csrBounds | .frontierFull | .frontierEmpty | .frontierKind => true
  | _ => false

theorem Cause.ne_noError_of_operational {c : Cause} (h : c.operational = true) : c ≠ .noError := by
  rintro rfl
  simp [Cause.operational] at h

end Sys2Proof.Machine

namespace Sys2Proof
open Machine

/-- The cause an instruction's operand fields raise where they fail their checks. -/
def Instr.fieldCause : Instr → Cause
  | .jmp _ | .bz _ | .bnz _ | .blt _ | .bge _ => .branchTarget
  | .niter _ | .nnext _ => .iterIndex
  | _ => .regIndex

theorem Instr.fieldCause_cases (i : Instr) :
    i.fieldCause = .regIndex ∨ i.fieldCause = .iterIndex ∨ i.fieldCause = .branchTarget := by
  cases i <;> simp [Instr.fieldCause]

theorem Instr.fieldCause_ne_noError (i : Instr) : i.fieldCause ≠ .noError := by
  rcases i.fieldCause_cases with h | h | h <;> simp [h]

end Sys2Proof

namespace Sys2Proof.Machine

/-! #### Computations whose field checks come first -/

section Checked
variable {α β : Type} {wf wf' : Bool} {c : Cause} {P : α → Prop} {Q : β → Prop}

/-- A test of operand fields alone: it answers iff the fields pass, and raises `c` otherwise. -/
def FieldTest (wf : Bool) (c : Cause) (x : Except Cause α) : Prop :=
  (wf = true ∧ ∃ a, x = .ok a) ∨ (wf = false ∧ x = .error c)

/-- A computation that raises nothing but operational causes. -/
def OnlyOperational (x : Except Cause α) : Prop := ∀ e, x = .error e → e.operational = true

/-- A computation that raises `c` where the fields fail, and otherwise ends in `P` or in an operational error. -/
structure Checked (wf : Bool) (c : Cause) (P : α → Prop) (x : Except Cause α) : Prop where
  illFormed : wf = false → x = .error c
  wellFormed : wf = true → (∃ a, x = .ok a ∧ P a) ∨ ∃ e, x = .error e ∧ e.operational = true

theorem Checked.pure {a : α} (h : P a) : Checked true c P (.ok a) :=
  ⟨fun hf => by simp at hf, fun _ => .inl ⟨a, rfl, h⟩⟩

theorem Checked.error {e : Cause} (h : e.operational = true) : Checked true c P (.error e) :=
  ⟨fun hf => by simp at hf, fun _ => .inr ⟨e, rfl, h⟩⟩

theorem FieldTest.checked {x : Except Cause α} (h : FieldTest wf c x) : Checked wf c (fun _ => True) x := by
  rcases h with ⟨rfl, a, rfl⟩ | ⟨rfl, rfl⟩
  · exact Checked.pure trivial
  · exact ⟨fun _ => rfl, fun hf => by simp at hf⟩

theorem OnlyOperational.checked {x : Except Cause α} (h : OnlyOperational x) : Checked true c (fun _ => True) x := by
  cases x with
  | ok a => exact Checked.pure trivial
  | error e => exact Checked.error (h e rfl)

/-- After the last field check anything operational may follow. -/
theorem Checked.bind {x : Except Cause α} {f : α → Except Cause β} (hx : Checked wf c P x)
    (hf : ∀ a, Checked true c Q (f a)) : Checked wf c Q (x >>= f) := by
  refine ⟨fun h => by rw [hx.illFormed h, error_bind], fun h => ?_⟩
  rcases hx.wellFormed h with ⟨a, rfl, -⟩ | ⟨e, rfl, he⟩
  · exact (hf a).wellFormed rfl
  · exact .inr ⟨e, rfl, he⟩

/-- A field test followed by a computation with field checks of its own. -/
theorem FieldTest.bind {x : Except Cause α} {f : α → Except Cause β} (hx : FieldTest wf c x)
    (hf : ∀ a, Checked wf' c Q (f a)) : Checked (wf && wf') c Q (x >>= f) := by
  rcases hx with ⟨rfl, a, rfl⟩ | ⟨rfl, rfl⟩
  · simpa using hf a
  · exact ⟨fun _ => rfl, fun hf => by simp at hf⟩

/-- A field test followed by operational steps only. -/
theorem FieldTest.last {x : Except Cause α} {f : α → Except Cause β} (hx : FieldTest wf c x)
    (hf : ∀ a, Checked true c Q (f a)) : Checked wf c Q (x >>= f) := hx.checked.bind hf

/-- An operational step followed by operational steps only. -/
theorem OnlyOperational.bind {x : Except Cause α} {f : α → Except Cause β} (hx : OnlyOperational x)
    (hf : ∀ a, Checked true c Q (f a)) : Checked true c Q (x >>= f) := hx.checked.bind hf

theorem OnlyOperational.seq {x : Except Cause α} {f : α → Except Cause β} (hx : OnlyOperational x)
    (hf : ∀ a, OnlyOperational (f a)) : OnlyOperational (x >>= f) := fun e he => by
  rcases (bind_eq_error _ _ _).1 he with he | ⟨a, -, he⟩
  · exact hx e he
  · exact hf a e he

theorem OnlyOperational.ok (a : α) : OnlyOperational (.ok a : Except Cause α) := fun e he => by simp at he

theorem OnlyOperational.error {e : Cause} (h : e.operational = true) : OnlyOperational (.error e : Except Cause α) :=
  fun e' he => by simpa [← Except.error.inj he] using h

end Checked

/-! #### The operand forms (10_state.md R36; 30_encoding.md R118) -/

theorem scalarIndex_fieldTest (b : Bank) (d : Byte) : FieldTest (scalarOk b d) .regIndex (scalarIndex b d.toNat) := by
  by_cases h : d.toNat < b.scalars
  · exact .inl ⟨by simp [scalarOk, h], _, scalarIndex_of_lt h⟩
  · exact .inr ⟨by simp [scalarOk, h], scalarIndex_of_not_lt h⟩

theorem vectorIndex_fieldTest (n : Nat) : FieldTest (decide (n < 16)) .regIndex (vectorIndex n) := by
  by_cases h : n < 16
  · exact .inl ⟨by simp [h], _, vectorIndex_of_lt h⟩
  · exact .inr ⟨by simp [h], vectorIndex_of_not_lt h⟩

theorem iterIndex_fieldTest (i : Byte) : FieldTest (iterOk i) .iterIndex (iterIndex i) := by
  by_cases h : i.toNat < 4
  · exact .inl ⟨by simp [iterOk, h], _, iterIndex_of_lt h⟩
  · exact .inr ⟨by simp [iterOk, h], iterIndex_of_not_lt h⟩

theorem State.src2_fieldTest (s : State) (b : Bank) (x : Src2) : FieldTest (x.ok b) .regIndex (s.src2 b x) := by
  cases h : s.src2 b x with
  | ok v =>
    refine .inl ⟨?_, v, rfl⟩
    by_contra hx
    have he := s.src2_eq_error.2 ⟨by simpa using hx, rfl⟩
    simp [he] at h
  | error c => obtain ⟨hx, rfl⟩ := s.src2_eq_error.1 h; exact .inr ⟨hx, rfl⟩

theorem State.src1_fieldTest (s : State) (b : Bank) (x : Src1) : FieldTest (x.ok b) .regIndex (s.src1 b x) := by
  cases h : s.src1 b x with
  | ok v =>
    refine .inl ⟨?_, v, rfl⟩
    by_contra hx
    have he := s.src1_eq_error.2 ⟨by simpa using hx, rfl⟩
    simp [he] at h
  | error c => obtain ⟨hx, rfl⟩ := s.src1_eq_error.1 h; exact .inr ⟨hx, rfl⟩

/-- An effective address checks its register field, then its range (43_memory_ops.md R260). -/
theorem State.effAddr_checked (s : State) (len : Nat) (x : Src1) :
    Checked (x.ok .int) .regIndex (fun _ => True) (s.effAddr len x) := by
  refine (s.src1_fieldTest .int x).last fun v => ?_
  split
  · exact Checked.pure trivial
  · exact Checked.error rfl

theorem State.branch_checked (s : State) (a : Word) (taken : Bool) :
    Checked (targetOk a) .branchTarget (fun u => u.pstate = s.pstate) (s.branch a taken) := by
  by_cases h : a.toNat < 8192
  · rw [State.branch_of_lt h, show targetOk a = true by simp [targetOk, h]]
    exact Checked.pure (by cases taken <;> rfl)
  · rw [State.branch_of_not_lt h, show targetOk a = false by simp [targetOk, h]]
    exact ⟨fun _ => rfl, fun hf => by simp at hf⟩

theorem State.arith_checked (s : State) (b : Bank) (d s1 : Byte) (s2 : Src2) {op : Word → Word → Except Cause Word}
    (hop : ∀ x y, OnlyOperational (op x y)) :
    Checked (scalarOk b d && scalarOk b s1 && s2.ok b) .regIndex (fun u => u.pstate = s.pstate) (s.arith b d s1 s2 op) := by
  rw [Bool.and_assoc]
  exact (scalarIndex_fieldTest b d).bind fun k => (scalarIndex_fieldTest b s1).bind fun i =>
    (s.src2_fieldTest b s2).last fun y => (hop _ y).bind fun v => Checked.pure (by simp)

theorem State.lanewise_checked (s : State) (b : Bank) (d s1 : Byte) (s2 : Word)
    {op : Lanes → Lanes → Except Cause Lanes} (hop : ∀ x y, OnlyOperational (op x y)) :
    Checked (vectorOk d && vectorOk s1 && decide (s2.toNat < 16)) .regIndex (fun u => u.pstate = s.pstate)
      (s.lanewise b d s1 s2 op) := by
  rw [Bool.and_assoc]
  exact (vectorIndex_fieldTest d.toNat).bind fun k => (vectorIndex_fieldTest s1.toNat).bind fun i =>
    (vectorIndex_fieldTest s2.toNat).last fun j => (hop _ _).bind fun v => Checked.pure (by simp)

/-! #### The operational parts -/

theorem divWord_onlyOperational (b : Bank) (x y : Word) : OnlyOperational (divWord b x y) := by
  unfold divWord
  split
  · exact .error rfl
  · exact .ok _

theorem csrEntry_onlyOperational (array : List Word) (i : Int) : OnlyOperational (csrEntry array i) := fun e he => by
  rw [(csrEntry_eq_error he).1]; rfl

theorem Csr.needNode_onlyOperational (g : Csr) (u : Word) : OnlyOperational (g.needNode u) := fun e he => by
  rw [(Csr.needNode_eq_error.1 he).2]; rfl

theorem Csr.degree_onlyOperational (g : Csr) (u : Nat) : OnlyOperational (g.degree u) :=
  (csrEntry_onlyOperational _ _).seq fun _ => (csrEntry_onlyOperational _ _).seq fun _ => .ok _

theorem Csr.hasEdge_onlyOperational (g : Csr) (u : Nat) (v : Word) : OnlyOperational (g.hasEdge u v) := by
  refine OnlyOperational.seq ?_ fun _ => .ok _
  refine (csrEntry_onlyOperational _ _).seq fun lo => (csrEntry_onlyOperational _ _).seq fun hi => ?_
  split
  · split
    · exact .ok _
    · exact .error rfl
  · exact .ok _

theorem Csr.seekEdge_onlyOperational (g : Csr) (fuel u e : Nat) : OnlyOperational (g.seekEdge fuel u e) := by
  induction fuel generalizing u e with
  | zero => exact .ok _
  | succ fuel ih =>
    unfold Csr.seekEdge
    split
    · refine (csrEntry_onlyOperational _ _).seq fun lo => (csrEntry_onlyOperational _ _).seq fun hi => ?_
      split
      · exact ih _ _
      · exact .ok _
    · exact .ok _

theorem Frontier.push_onlyOperational (q : Frontier) (x : Word) : OnlyOperational (q.push x) := fun e he => by
  rcases Frontier.push_eq_error.1 he with ⟨-, rfl⟩ | ⟨-, -, rfl⟩ <;> rfl

theorem Frontier.pop_onlyOperational (q : Frontier) : OnlyOperational q.pop := fun e he => by
  rcases Frontier.pop_eq_error.1 he with ⟨-, rfl⟩ | ⟨-, -, rfl⟩ <;> rfl

theorem Frontier.testEmpty_onlyOperational (q : Frontier) : OnlyOperational q.testEmpty := fun e he => by
  rw [(Frontier.testEmpty_eq_error.1 he).2]; rfl

theorem Frontier.fill_onlyOperational (q : Frontier) (n : Nat) : OnlyOperational (q.fill n) := fun e he => by
  rcases Frontier.fill_eq_error.1 he with ⟨-, rfl⟩ | ⟨-, -, rfl⟩ <;> rfl

/-! #### Every execute -/

/-- The execute of every instruction but HALT: its field checks decide between the field error and a next state that
leaves PSTATE or an operational error. -/
theorem exec_checked (i : Instr) (s : State) (hi : i ≠ .halt) :
    ∃ r, exec i s = conclude s r ∧ Checked i.wellFormed i.fieldCause (fun u => u.pstate = s.pstate) r := by
  cases i with
  | halt => exact absurd rfl hi
  | jmp a | bz a | bnz a | blt a | bge a => exact ⟨_, rfl, s.branch_checked a _⟩
  | niter n => exact ⟨_, rfl, (iterIndex_fieldTest n).last fun k => Checked.pure rfl⟩
  | nnext n =>
    refine ⟨_, rfl, (iterIndex_fieldTest n).last fun k => (s.graph.needNode_onlyOperational _).bind fun u =>
      (csrEntry_onlyOperational _ _).bind fun lo => (csrEntry_onlyOperational _ _).bind fun hi => ?_⟩
    dsimp only
    split
    · exact (csrEntry_onlyOperational _ _).bind fun nb => (csrEntry_onlyOperational _ _).bind fun w => Checked.pure rfl
    · exact Checked.pure rfl
  | eiter => exact ⟨.ok _, rfl, Checked.pure rfl⟩
  | enext =>
    refine ⟨_, rfl, ?_⟩
    dsimp only
    split
    · exact Checked.error rfl
    · refine (s.graph.seekEdge_onlyOperational _ _ _).bind fun p => ?_
      split
      · exact Checked.pure rfl
      · exact (csrEntry_onlyOperational _ _).bind fun lo => (csrEntry_onlyOperational _ _).bind fun nb =>
          (csrEntry_onlyOperational _ _).bind fun w => Checked.pure rfl
  | hase =>
    exact ⟨_, rfl, (s.graph.needNode_onlyOperational _).bind fun u =>
      (s.graph.hasEdge_onlyOperational u _).bind fun hit => Checked.pure rfl⟩
  | deg r =>
    exact ⟨_, rfl, (scalarIndex_fieldTest .int r).last fun k => (s.graph.needNode_onlyOperational _).bind fun u =>
      (s.graph.degree_onlyOperational u).bind fun v => Checked.pure rfl⟩
  | add b d s1 s2 | sub b d s1 s2 | mul b d s1 s2 => exact ⟨_, rfl, s.arith_checked b d s1 s2 fun x y => .ok _⟩
  | div b d s1 s2 => exact ⟨_, rfl, s.arith_checked b d s1 s2 (divWord_onlyOperational b)⟩
  | cmp b s1 x =>
    exact ⟨_, rfl, (scalarIndex_fieldTest b s1).bind fun k => (s.src2_fieldTest b x).last fun y => Checked.pure rfl⟩
  | mov b d x =>
    exact ⟨_, rfl, (scalarIndex_fieldTest b d).bind fun k => (s.src1_fieldTest b x).last fun v => Checked.pure (by simp)⟩
  | movc b d x =>
    exact ⟨_, rfl, (scalarIndex_fieldTest b d).bind fun k => (scalarIndex_fieldTest b.other x).last fun j =>
      Checked.pure (by simp)⟩
  | ld b d x =>
    exact ⟨_, rfl, (scalarIndex_fieldTest b d).bind fun k => (s.effAddr_checked 1 x).bind fun a => Checked.pure (by simp)⟩
  | st b d x =>
    exact ⟨_, rfl, (scalarIndex_fieldTest b d).bind fun k => (s.effAddr_checked 1 x).bind fun a => Checked.pure rfl⟩
  | fpush r =>
    exact ⟨_, rfl, (scalarIndex_fieldTest .int r).last fun k => (s.nextQ.push_onlyOperational _).bind fun q =>
      Checked.pure rfl⟩
  | fpop r =>
    exact ⟨_, rfl, (scalarIndex_fieldTest .int r).last fun k => s.currentQ.pop_onlyOperational.bind fun p =>
      Checked.pure rfl⟩
  | fempty => exact ⟨_, rfl, s.currentQ.testEmpty_onlyOperational.bind fun e => Checked.pure rfl⟩
  | fswap => exact ⟨.ok _, rfl, Checked.pure rfl⟩
  | ffill => exact ⟨_, rfl, (s.currentQ.fill_onlyOperational _).bind fun q => Checked.pure rfl⟩
  | vadd b d s1 s2 | vsub b d s1 s2 | vmul b d s1 s2 => exact ⟨_, rfl, s.lanewise_checked b d s1 s2 fun x y => .ok _⟩
  | vdiv b d s1 s2 =>
    refine ⟨_, rfl, s.lanewise_checked b d s1 s2 fun x y => ?_⟩
    split
    · exact .error rfl
    · exact .ok _
  | vld b d x =>
    exact ⟨_, rfl, (vectorIndex_fieldTest d.toNat).bind fun k => (s.effAddr_checked 4 x).bind fun a =>
      Checked.pure (by simp)⟩
  | vst b d x =>
    exact ⟨_, rfl, (vectorIndex_fieldTest d.toNat).bind fun k => (s.effAddr_checked 4 x).bind fun a => Checked.pure rfl⟩
  | vset b d x =>
    exact ⟨_, rfl, (vectorIndex_fieldTest d.toNat).bind fun k => (s.src1_fieldTest b x).last fun v =>
      Checked.pure (by simp)⟩
  | vsum b d v =>
    exact ⟨_, rfl, (scalarIndex_fieldTest b d).bind fun k => (vectorIndex_fieldTest v.toNat).last fun j =>
      Checked.pure (by simp)⟩
  | parallel | barrier | lock | unlock => exact ⟨.ok _, rfl, Checked.pure rfl⟩

/-- An ill-formed instruction takes its field error at every state. -/
theorem exec_of_illFormed {i : Instr} (s : State) (h : i.wellFormed = false) :
    exec i s = .next (s.raise i.fieldCause) := by
  obtain ⟨r, he, hr⟩ := exec_checked i s (by rintro rfl; simp [Instr.wellFormed] at h)
  rw [he, hr.illFormed h, conclude_error]

/-- A well-formed instruction other than HALT leaves PSTATE or takes an operational error. -/
theorem exec_of_wellFormed {i : Instr} (s : State) (h : i.wellFormed = true) (hi : i ≠ .halt) :
    (∃ u, exec i s = .next u ∧ u.pstate = s.pstate) ∨ ∃ c, exec i s = .next (s.raise c) ∧ c.operational = true := by
  obtain ⟨r, he, hr⟩ := exec_checked i s hi
  rcases hr.wellFormed h with ⟨u, rfl, hu⟩ | ⟨c, rfl, hc⟩
  · exact .inl ⟨u, he, hu⟩
  · exact .inr ⟨c, he, hc⟩

/-- From RUNNING, an execute that leaves ERRORED has taken its field error, being ill-formed, or an operational error,
being well-formed. -/
theorem exec_errored {i : Instr} {s t : State} (hs : s.pstate = .running) (h : exec i s = .next t)
    (ht : t.pstate = .errored) :
    (i.wellFormed = false ∧ t = s.raise i.fieldCause) ∨
    (i.wellFormed = true ∧ ∃ c, c.operational = true ∧ t = s.raise c) := by
  cases hw : i.wellFormed with
  | false => exact .inl ⟨rfl, by simpa [exec_of_illFormed s hw, eq_comm] using h⟩
  | true =>
    refine .inr ⟨rfl, ?_⟩
    by_cases hi : i = .halt
    · subst hi
      obtain rfl : s.halt = t := Host.Outcome.next.inj h
      simp at ht
    · rcases exec_of_wellFormed s hw hi with ⟨u, hu, hp⟩ | ⟨c, hu, hc⟩
      · obtain rfl : u = t := by simpa [hu] using h
        simp [hp, hs] at ht
      · exact ⟨c, hc, by simpa [hu, eq_comm] using h⟩

/-- Settles O23: field checks come before every other check, and no later check raises a field's cause. -/
theorem fieldErrorsIffIllFormed : Obligations.FieldErrorsIffIllFormed := by
  refine fun i s => ⟨fun hw => ?_, fun hw hs t h ht => ?_⟩
  · rw [exec_of_illFormed s hw]
    rcases i.fieldCause_cases with hc | hc | hc <;> rw [hc]
    · exact .inl rfl
    · exact .inr (.inl rfl)
    · exact .inr (.inr rfl)
  · rcases exec_errored hs h ht with ⟨hf, -⟩ | ⟨-, c, hc, rfl⟩
    · simp [hf] at hw
    · cases c <;> simp_all [Cause.operational, Cause.code]

end Sys2Proof.Machine

/-! ### The invariant at reset and along every step -/

namespace Sys2Proof.Machine

/-- Writing consecutive cells inside a bound keeps every listed index inside it. -/
theorem Memory.below_writeList {w bound : Nat} (vs : List (BitVec w)) (m : Memory w) (a : Nat)
    (ha : a + vs.length ≤ bound) (h : Memory.below m bound) : Memory.below (Memory.writeList m a vs) bound := by
  induction vs generalizing m a with
  | nil => exact h
  | cons v vs ih =>
    rw [List.length_cons] at ha
    exact ih _ _ (by omega) (Memory.below_write m a bound v (by omega) h)

/-! #### Frontiers -/

theorem Frontier.reset_inv : Frontier.reset.Inv :=
  ⟨rfl, by decide, State.reset_wf.2.2, Memory.below_nil 1024⟩

/-- An enqueue with room adds one entry and keeps the frontier's invariant. -/
theorem Frontier.Inv.enqueue {q : Frontier} (h : q.Inv) (hroom : q.size < 1024) (x : Word) :
    (q.enqueue x).Inv ∧ (q.enqueue x).size = q.size + 1 := by
  obtain ⟨hk, hs, hw, hb⟩ := h
  have hsize : (q.enqueue x).size = q.size + 1 := by
    simp only [Frontier.size, Frontier.enqueue_back, Frontier.enqueue_front] at hroom ⊢
    bv_omega
  exact ⟨⟨hk, by omega, Memory.wf_write _ _ x hw, Memory.below_write _ _ 1024 x (Frontier.slotIndex_lt _) hb⟩, hsize⟩

theorem Frontier.Inv.push {q p : Frontier} {x : Word} (h : q.Inv) (hp : q.push x = .ok p) : p.Inv := by
  obtain ⟨-, hfull, rfl⟩ := Frontier.push_eq_ok.1 hp
  have ⟨_, hs, _⟩ := h
  exact (h.enqueue (by omega) x).1

theorem Frontier.Inv.pop {q : Frontier} {p : Word × Frontier} (h : q.Inv) (hp : q.pop = .ok p) : p.2.Inv := by
  obtain ⟨-, hne, rfl⟩ := Frontier.pop_eq_ok.1 hp
  obtain ⟨hk, hs, hw, hb⟩ := h
  refine ⟨hk, ?_, hw, hb⟩
  simp only [Frontier.size] at hs hne ⊢
  bv_omega

theorem Frontier.Inv.fill {q p : Frontier} {n : Nat} (h : q.Inv) (hp : q.fill n = .ok p) : p.Inv := by
  obtain ⟨-, hroom, rfl⟩ := Frontier.fill_eq_ok.1 hp
  exact (Frontier.foldl_enqueue_induction (P := Frontier.Inv) (BitVec.ofNat 32) (fun q x hq hlt => hq.enqueue hlt x)
    (List.range n) q h (by simpa using hroom)).1

theorem Frontier.Inv.init {q : Frontier} (h : q.Inv) : (q.init q.kind).Inv := by
  obtain ⟨hk, -, hw, hb⟩ := h
  exact ⟨hk, by simp, hw, hb⟩

/-! #### FLAGS bits 3 to 7 (10_state.md R40) -/

theorem State.setZ_high_bits {s : State} (h : s.flags &&& 0xF8#8 = 0) (z : Bool) :
    (s.setZ z).flags &&& 0xF8#8 = 0 := by
  rw [State.setZ_flags]
  generalize s.flags = v at h ⊢
  cases z <;> revert v <;> decide

theorem signFlags_high_bits (d : Int) : signFlags d &&& 0xF8#8 = 0 := by
  unfold signFlags
  split
  · decide
  · split <;> decide

/-- CMP writes 0 in bits 3 to 7, whatever CMPF_UNORDERED is (42_scalar.md R227). -/
theorem cmpFlags_high_bits (b : Bank) (x y : Word) : cmpFlags b x y &&& 0xF8#8 = 0 := by
  cases b with
  | int => exact signFlags_high_bits _
  | float =>
    simp only [cmpFlags, cmpFloatFlags]
    split
    · generalize Config.cmpfUnordered = v
      revert v
      decide
    · exact signFlags_high_bits _

/-! #### The part of the invariant that is not the report -/

/-- The invariant without its report clause: what the named operations keep one by one. -/
structure State.DataInv (s : State) : Prop where
  pc : s.pc.toNat ≤ 8192
  flags : s.flags &&& 0xF8#8 = 0
  mem : Memory.wf s.mem ∧ Memory.below s.mem 65536
  prog : Memory.wf s.prog ∧ Memory.below s.prog 8192
  frontiers : ∀ j : Fin 2, Frontier.Inv s.q[j.val]

theorem State.inv_iff (s : State) : s.Inv ↔ s.DataInv ∧ s.ReportInv := by
  constructor
  · rintro ⟨hpc, hf, hm, hmb, hp, hpb, hq, hr⟩
    exact ⟨⟨hpc, hf, ⟨hm, hmb⟩, ⟨hp, hpb⟩, hq⟩, hr⟩
  · rintro ⟨⟨hpc, hf, ⟨hm, hmb⟩, ⟨hp, hpb⟩, hq⟩, hr⟩
    exact ⟨hpc, hf, hm, hmb, hp, hpb, hq, hr⟩

section DataInv
variable {s : State}

/-- A state that agrees on the five pieces has the invariant too. -/
theorem State.DataInv.congr {t : State} (h : s.DataInv) (hpc : t.pc = s.pc) (hf : t.flags = s.flags) (hm : t.mem = s.mem)
    (hp : t.prog = s.prog) (hq : t.q = s.q) : t.DataInv :=
  ⟨by rw [hpc]; exact h.pc, by rw [hf]; exact h.flags, by rw [hm]; exact h.mem, by rw [hp]; exact h.prog,
    fun j => by simpa only [hq] using h.frontiers j⟩

theorem State.DataInv.writeR (h : s.DataInv) (i : Fin 24) (v : Word) : (s.writeR i v).DataInv :=
  h.congr rfl rfl rfl rfl rfl

theorem State.DataInv.writeScalar (h : s.DataInv) (b : Bank) (k : Fin b.scalars) (v : Word) : (s.writeScalar b k v).DataInv :=
  h.congr (by simp) (by simp) (by simp) (by simp) (by simp)

theorem State.DataInv.writeVector (h : s.DataInv) (b : Bank) (k : Fin 16) (v : Lanes) : (s.writeVector b k v).DataInv :=
  h.congr (by simp) (by simp) (by simp) (by simp) (by simp)

theorem State.DataInv.writeNiter (h : s.DataInv) (k : Fin 4) (v : Word) : (s.writeNiter k v).DataInv :=
  h.congr rfl rfl rfl rfl rfl

theorem State.DataInv.writeEiter (h : s.DataInv) (v : Word) : (s.writeEiter v).DataInv := h.congr rfl rfl rfl rfl rfl

theorem State.DataInv.stop (h : s.DataInv) (p : PState) (c : Cause) (x : Word) : (s.stop p c x).DataInv :=
  h.congr rfl rfl rfl rfl rfl

theorem State.DataInv.countClock (h : s.DataInv) : s.countClock.DataInv := h.congr rfl rfl rfl rfl rfl

theorem State.DataInv.recordWord (h : s.DataInv) (w : ProgWord) : (s.recordWord w).DataInv := h.congr rfl rfl rfl rfl rfl

theorem State.DataInv.latchDecoded (h : s.DataInv) (w : ProgWord) : (s.latchDecoded w).DataInv := h.congr rfl rfl rfl rfl rfl

theorem State.DataInv.setPc (h : s.DataInv) {a : Word} (ha : a.toNat ≤ 8192) : (s.setPc a).DataInv :=
  ⟨ha, h.flags, h.mem, h.prog, h.frontiers⟩

/-- The fetch advances a PC below 8192 to at most 8192 (R39). -/
theorem State.DataInv.advancePc (h : s.DataInv) (hpc : s.pc.toNat < 8192) : s.advancePc.DataInv := by
  refine ⟨?_, h.flags, h.mem, h.prog, h.frontiers⟩
  rw [State.advancePc_pc]
  bv_omega

theorem State.DataInv.branch (h : s.DataInv) {a : Word} (ha : a.toNat < 8192) (taken : Bool) :
    (if taken then s.setPc a else s).DataInv := by
  split
  · exact h.setPc ha.le
  · exact h

theorem State.DataInv.setZ (h : s.DataInv) (z : Bool) : (s.setZ z).DataInv :=
  ⟨h.pc, State.setZ_high_bits h.flags z, h.mem, h.prog, h.frontiers⟩

theorem State.DataInv.setFlags (h : s.DataInv) {v : BitVec 8} (hv : v &&& 0xF8#8 = 0) : (s.setFlags v).DataInv :=
  ⟨h.pc, hv, h.mem, h.prog, h.frontiers⟩

theorem State.DataInv.writeMem (h : s.DataInv) {a : Nat} (ha : a < 65536) (v : Word) : (s.writeMem a v).DataInv :=
  ⟨h.pc, h.flags, ⟨Memory.wf_write _ a v h.mem.1, Memory.below_write _ a _ v ha h.mem.2⟩, h.prog, h.frontiers⟩

theorem State.DataInv.writeMem4 (h : s.DataInv) {a : Nat} (ha : a + 4 ≤ 65536) (v : Lanes) : (s.writeMem4 a v).DataInv :=
  ⟨h.pc, h.flags, ⟨Memory.wf_writeList _ _ a h.mem.1, Memory.below_writeList _ _ a ha h.mem.2⟩, h.prog, h.frontiers⟩

theorem State.DataInv.setQ (h : s.DataInv) (i : Fin 2) {q : Frontier} (hq : q.Inv) :
    State.DataInv { s with q := s.q.set i.val q } := by
  refine ⟨h.pc, h.flags, h.mem, h.prog, fun j => ?_⟩
  by_cases hij : i.val = j.val
  · simpa [hij] using hq
  · simpa [hij] using h.frontiers j

theorem State.DataInv.setCurrentQ (h : s.DataInv) {q : Frontier} (hq : q.Inv) : (s.setCurrentQ q).DataInv := h.setQ s.cur hq

theorem State.DataInv.setNextQ (h : s.DataInv) {q : Frontier} (hq : q.Inv) : (s.setNextQ q).DataInv :=
  h.setQ (otherRole s.cur) hq

theorem State.DataInv.currentQ (h : s.DataInv) : s.currentQ.Inv := h.frontiers s.cur

theorem State.DataInv.nextQ (h : s.DataInv) : s.nextQ.Inv := h.frontiers (otherRole s.cur)

theorem State.DataInv.swapRoles (h : s.DataInv) : s.swapRoles.DataInv :=
  (h.setCurrentQ h.currentQ.init).congr rfl rfl rfl rfl rfl

/-- A completed instruction keeps it. -/
theorem Completes.dataInv {i : Instr} {t : State} (hc : Completes i s t) (h : s.DataInv) : t.DataInv := by
  cases i with
  | halt => obtain rfl : t = s.halt := hc; exact h.stop _ _ _
  | jmp a => obtain ⟨ha, rfl⟩ := hc; exact h.setPc ha.le
  | bz a | bnz a | blt a | bge a => obtain ⟨ha, rfl⟩ := hc; exact h.branch ha _
  | niter n => obtain ⟨k, -, rfl⟩ := hc; exact h.writeNiter k 0
  | nnext n =>
    obtain ⟨k, -, rfl | ⟨nb, w, rfl⟩⟩ := hc
    · exact h.setZ true
    · exact (((h.writeR _ nb).writeR _ w).writeNiter k _).setZ false
  | eiter => obtain rfl : t = (s.writeEiter 0).writeR rnode 0 := hc; exact (h.writeEiter 0).writeR _ 0
  | enext =>
    obtain ⟨u, e, rfl | ⟨nb, w, rfl⟩⟩ := hc
    · exact ((h.writeR _ u).writeEiter e).setZ true
    · exact ((((h.writeR _ u).writeR _ nb).writeR _ w).writeEiter e).setZ false
  | hase => obtain ⟨z, rfl⟩ := hc; exact h.setZ z
  | deg r => obtain ⟨v, rfl⟩ := hc; exact h.writeR _ v
  | cmp b s1 x => obtain ⟨k, y, -, -, rfl⟩ := hc; exact h.setFlags (cmpFlags_high_bits b _ y)
  | ld b d x => obtain ⟨k, a, -, -, rfl⟩ := hc; exact h.writeScalar b k _
  | st b d x =>
    obtain ⟨k, a, -, ha, rfl⟩ := hc
    obtain ⟨-, -, -, -, hle⟩ := State.effAddr_eq_ok ha
    exact h.writeMem (by omega) _
  | fpush r => obtain ⟨k, q, -, hq, rfl⟩ := hc; exact h.setNextQ (h.nextQ.push hq)
  | fpop r => obtain ⟨k, p, -, hp, rfl⟩ := hc; exact (h.setCurrentQ (h.currentQ.pop hp)).writeR k _
  | fempty => obtain rfl : t = s.setZ s.currentQ.isEmpty := hc; exact h.setZ _
  | fswap => obtain rfl : t = s.swapRoles := hc; exact h.swapRoles
  | ffill => obtain ⟨q, hq, rfl⟩ := hc; exact h.setCurrentQ (h.currentQ.fill hq)
  | vst b d x =>
    obtain ⟨k, a, -, ha, rfl⟩ := hc
    obtain ⟨-, -, -, -, hle⟩ := State.effAddr_eq_ok ha
    exact h.writeMem4 hle _
  | add | sub | mul | div | mov | movc | vsum => obtain ⟨k, v, -, rfl⟩ := hc; exact h.writeScalar _ k v
  | vadd | vsub | vmul | vdiv | vld | vset => obtain ⟨k, v, -, rfl⟩ := hc; exact h.writeVector _ k v
  | parallel | barrier | lock | unlock => obtain rfl : t = s := hc; exact h

end DataInv

theorem exec_dataInv {i : Instr} {s t : State} (h : exec i s = .next t) (hs : s.DataInv) : t.DataInv := by
  rcases exec_eq_next h with hc | ⟨c, rfl⟩
  · exact hc.dataInv hs
  · exact hs.stop _ c _

/-! #### The report (60_exceptions.md R371, R373) -/

/-- The codes of the causes of an error are 1 to 12. -/
theorem Cause.code_range (c : Cause) (h : c ≠ .noError) : 1 ≤ c.code.toNat ∧ c.code.toNat ≤ 12 := by
  cases c
  case noError => exact absurd rfl h
  all_goals decide

/-- While RUNNING, nothing is recorded. -/
theorem State.ReportInv.errWord_of_running {s : State} (h : s.ReportInv) (hs : s.pstate = .running) : s.errWord = 0 := by
  obtain ⟨hrun, -, -, hword⟩ := h
  by_contra hne
  have hc : Cause.noError.code = Cause.decode.code := (hrun hs).1.symm.trans (hword hne)
  exact absurd hc (by decide)

/-- The report agrees with the four registers it is about. -/
theorem State.ReportInv.congr {s t : State} (h : s.ReportInv) (hp : t.pstate = s.pstate) (hc : t.errCause = s.errCause)
    (hx : t.exitPc = s.exitPc) (hw : t.errWord = s.errWord) : t.ReportInv := by
  unfold State.ReportInv
  rw [hp, hc, hx, hw]
  exact h

/-- A stop with status HALT, nothing being recorded in ERR_WORD. -/
theorem State.reportInv_stop_halted {s : State} (hw : s.errWord = 0) (x : Word) : (s.stop .halted .noError x).ReportInv :=
  ⟨by simp, fun _ => rfl, by simp, fun h => absurd hw h⟩

/-- A stop with an error of a cause that is one, ERR_WORD holding a word only for DECODE. -/
theorem State.reportInv_stop_errored {s : State} {c : Cause} (hc : c ≠ .noError) (hw : s.errWord ≠ 0 → c = .decode)
    (x : Word) : (s.stop .errored c x).ReportInv := by
  refine ⟨by simp, by simp, fun _ => ?_, fun h => by rw [State.stop_errCause, hw h]⟩
  rw [State.stop_errCause]
  exact c.code_range hc

/-- An execute from RUNNING with nothing recorded leaves a report that agrees. -/
theorem exec_reportInv {i : Instr} {s t : State} (h : exec i s = .next t) (hp : s.pstate = .running) (hs : s.ReportInv) :
    t.ReportInv := by
  have hw := hs.errWord_of_running hp
  have raised {c : Cause} (hc : c ≠ .noError) : (s.raise c).ReportInv :=
    State.reportInv_stop_errored hc (fun hne => absurd hw hne) _
  rcases exec_eq_next h with hc | ⟨c, rfl⟩
  · by_cases hi : i = .halt
    · subst hi
      obtain rfl : t = s.halt := hc
      exact State.reportInv_stop_halted hw _
    · obtain ⟨h1, h2, h3⟩ := hc.same_stopReport hi
      exact hs.congr h1 h2 h3 (hc.same_of_not_mayWrite (not_mayWrite_errWord i s))
  · rcases exec_errored hp h rfl with ⟨-, he⟩ | ⟨-, c', hc', he⟩
    · rw [he]; exact raised i.fieldCause_ne_noError
    · rw [he]; exact raised (Cause.ne_noError_of_operational hc')

/-! #### The statements -/

/-- Settles O2: empty memories, PC 0, FLAGS 0, two empty queues and nothing recorded. -/
theorem resetStateSatisfiesInvariant : Obligations.ResetStateSatisfiesInvariant := by
  obtain ⟨hmem, hprog, -⟩ := State.reset_wf
  refine ⟨by decide, by decide, hmem, Memory.below_nil _, hprog, Memory.below_nil _, fun j => ?_,
    ⟨fun _ => ⟨rfl, rfl⟩, fun _ => rfl, fun h => by simp [State.reset] at h, fun h => absurd rfl h⟩⟩
  rw [show State.reset.q[j.val] = Frontier.reset from Vector.getElem_replicate ..]
  exact Frontier.reset_inv

/-- The hook point keeps the invariant: where it stops the block, nothing was recorded before. -/
theorem State.Inv.sampleAbort {s : State} (h : s.Inv) (abort : State → Bool) (x : Word) : (s.sampleAbort abort x).Inv := by
  obtain ⟨hd, hr⟩ := s.inv_iff.1 h
  rcases s.sampleAbort_cases abort x with he | ⟨hp, -, he⟩ <;> rw [he]
  · exact h
  · exact (State.inv_iff _).2 ⟨hd.stop _ _ _,
      State.reportInv_stop_errored (by simp) (fun hne => absurd (hr.errWord_of_running hp) hne) x⟩

/-- A tick keeps the invariant under every abort function. -/
theorem tick_inv {abort : State → Bool} {s t : State} (h : tick abort s = .next t) (hs : s.Inv) : t.Inv := by
  obtain ⟨hd, hr⟩ := s.inv_iff.1 hs
  rcases tick_eq_next h with ⟨-, rfl⟩ | ⟨hp, -, rfl⟩ | ⟨-, hpc, -, rfl⟩ | ⟨hp, hpc, i, u, -, hu, rfl⟩
  · exact hs
  · exact (State.inv_iff _).2 ⟨hd.stop _ _ _, State.reportInv_stop_halted (hr.errWord_of_running hp) _⟩
  · exact (State.inv_iff _).2 ⟨((hd.advancePc hpc).recordWord _).stop _ _ _,
      State.reportInv_stop_errored (by simp) (fun _ => rfl) _⟩
  · have hbefore : (s.beforeExecute s.fetchWord).ReportInv := hr.congr rfl rfl rfl rfl
    have hud := exec_dataInv hu ((hd.advancePc hpc).latchDecoded _)
    have hur := exec_reportInv hu hp hbefore
    have hcount : u.countClock.Inv := (State.inv_iff _).2 ⟨hud.countClock, hur.congr rfl rfl rfl rfl⟩
    exact hcount.sampleAbort abort _

/-- Settles O3: a step is a tick. -/
theorem stepKeepsInvariant : Obligations.StepKeepsInvariant := fun _ _ hs h => tick_inv h hs

end Sys2Proof.Machine

/-! ### What no instruction can observe: FLAGS outside the conditional branches, and the cells of Rzero and Fzero -/

namespace Sys2Proof

/-- The conditional branches, the only instructions whose rules read FLAGS (10_state.md R42). -/
def Instr.readsFlags (i : Instr) : Prop := i.opcode = .bz ∨ i.opcode = .bnz ∨ i.opcode = .blt ∨ i.opcode = .bge

end Sys2Proof

namespace Sys2Proof.Machine

/-! #### Computations of related states -/

/-- Two computations end in related states or in the same error. -/
def SameEnd (R : State → State → Prop) : Except Cause State → Except Cause State → Prop
  | .ok t, .ok t' => R t t'
  | .error c, .error c' => c = c'
  | _, _ => False

/-- Both run the same first part, and related computations from its value. -/
theorem SameEnd.bind {R : State → State → Prop} {α : Type} {x x' : Except Cause α} {f f' : α → Except Cause State}
    (hx : x = x') (hf : ∀ a, SameEnd R (f a) (f' a)) : SameEnd R (x >>= f) (x' >>= f') := by
  subst hx
  cases x with
  | ok a => exact hf a
  | error c => exact rfl

/-- A relation of states through which the ports, the cursors, the queues and the memories read alike, and which every
named operation keeps. FLAGS may differ. -/
structure Invisible (R : State → State → Prop) : Prop where
  readScalar : ∀ {s s'}, R s s' → ∀ b k, s.readScalar b k = s'.readScalar b k
  readVector : ∀ {s s'}, R s s' → ∀ b k, s.readVector b k = s'.readVector b k
  pc : ∀ {s s'}, R s s' → s.pc = s'.pc
  niter : ∀ {s s'}, R s s' → s.niter = s'.niter
  eiter : ∀ {s s'}, R s s' → s.eiter = s'.eiter
  q : ∀ {s s'}, R s s' → s.q = s'.q
  cur : ∀ {s s'}, R s s' → s.cur = s'.cur
  graph : ∀ {s s'}, R s s' → s.graph = s'.graph
  mem : ∀ {s s'}, R s s' → s.mem = s'.mem
  writeScalar : ∀ {s s'}, R s s' → ∀ b k v, R (s.writeScalar b k v) (s'.writeScalar b k v)
  writeVector : ∀ {s s'}, R s s' → ∀ b k v, R (s.writeVector b k v) (s'.writeVector b k v)
  setPc : ∀ {s s'}, R s s' → ∀ a, R (s.setPc a) (s'.setPc a)
  writeNiter : ∀ {s s'}, R s s' → ∀ k v, R (s.writeNiter k v) (s'.writeNiter k v)
  writeEiter : ∀ {s s'}, R s s' → ∀ v, R (s.writeEiter v) (s'.writeEiter v)
  setZ : ∀ {s s'}, R s s' → ∀ z, R (s.setZ z) (s'.setZ z)
  setFlags : ∀ {s s'}, R s s' → ∀ v, R (s.setFlags v) (s'.setFlags v)
  writeMem : ∀ {s s'}, R s s' → ∀ a v, R (s.writeMem a v) (s'.writeMem a v)
  writeMem4 : ∀ {s s'}, R s s' → ∀ a v, R (s.writeMem4 a v) (s'.writeMem4 a v)
  setCurrentQ : ∀ {s s'}, R s s' → ∀ p, R (s.setCurrentQ p) (s'.setCurrentQ p)
  setNextQ : ∀ {s s'}, R s s' → ∀ p, R (s.setNextQ p) (s'.setNextQ p)
  swapRoles : ∀ {s s'}, R s s' → R s.swapRoles s'.swapRoles
  stop : ∀ {s s'}, R s s' → ∀ p c x, R (s.stop p c x) (s'.stop p c x)

section Invisible
variable {R : State → State → Prop} {s s' : State}

theorem Invisible.readR (hR : Invisible R) (h : R s s') (k : Fin 24) : s.readR k = s'.readR k := hR.readScalar h .int k

theorem Invisible.writeR (hR : Invisible R) (h : R s s') (k : Fin 24) (v : Word) : R (s.writeR k v) (s'.writeR k v) :=
  hR.writeScalar h .int k v

theorem Invisible.readMem (hR : Invisible R) (h : R s s') (a : Nat) : s.readMem a = s'.readMem a := by
  simp only [State.readMem, hR.mem h]

theorem Invisible.readMem4 (hR : Invisible R) (h : R s s') (a : Nat) : s.readMem4 a = s'.readMem4 a := by
  simp only [State.readMem4, hR.readMem h]

theorem Invisible.readNiter (hR : Invisible R) (h : R s s') (k : Fin 4) : s.readNiter k = s'.readNiter k := by
  simp only [State.readNiter, hR.niter h]

theorem Invisible.currentQ (hR : Invisible R) (h : R s s') : s.currentQ = s'.currentQ := by
  simp only [State.currentQ, hR.q h, hR.cur h]

theorem Invisible.nextQ (hR : Invisible R) (h : R s s') : s.nextQ = s'.nextQ := by
  simp only [State.nextQ, hR.q h, hR.cur h]

theorem Invisible.src2 (hR : Invisible R) (h : R s s') (b : Bank) (x : Src2) : s.src2 b x = s'.src2 b x := by
  cases x <;> simp only [State.src2, hR.readScalar h]

theorem Invisible.src1 (hR : Invisible R) (h : R s s') (b : Bank) (x : Src1) : s.src1 b x = s'.src1 b x := by
  cases x <;> simp only [State.src1, hR.readScalar h]

theorem Invisible.effAddr (hR : Invisible R) (h : R s s') (len : Nat) (x : Src1) : s.effAddr len x = s'.effAddr len x := by
  simp only [State.effAddr, hR.src1 h]

theorem Invisible.raise (hR : Invisible R) (h : R s s') (c : Cause) : R (s.raise c) (s'.raise c) := by
  unfold State.raise
  rw [hR.pc h]
  exact hR.stop h _ _ _

theorem Invisible.halt (hR : Invisible R) (h : R s s') : R s.halt s'.halt := by
  unfold State.halt
  rw [hR.pc h]
  exact hR.stop h _ _ _

/-- The end of an execute: an error is taken on related states. -/
theorem Invisible.conclude (hR : Invisible R) (h : R s s') {r r' : Except Cause State} (hr : SameEnd R r r') :
    ∃ t t', Machine.conclude s r = .next t ∧ Machine.conclude s' r' = .next t' ∧ R t t' := by
  match r, r', hr with
  | .ok t, .ok t', hr => exact ⟨t, t', rfl, rfl, hr⟩
  | .error c, .error _, rfl => exact ⟨_, _, rfl, rfl, hR.raise h c⟩

theorem Invisible.branch (hR : Invisible R) (h : R s s') (a : Word) {taken taken' : Bool} (ht : taken = taken') :
    SameEnd R (s.branch a taken) (s'.branch a taken') := by
  subst ht
  refine .bind rfl fun a => ?_
  cases taken with
  | true => exact hR.setPc h a
  | false => exact h

theorem Invisible.arith (hR : Invisible R) (h : R s s') (b : Bank) (d s1 : Byte) (s2 : Src2)
    (op : Word → Word → Except Cause Word) : SameEnd R (s.arith b d s1 s2 op) (s'.arith b d s1 s2 op) :=
  .bind rfl fun k => .bind rfl fun _ => .bind (hR.src2 h b s2) fun _ => .bind (by rw [hR.readScalar h]) fun v =>
    hR.writeScalar h b k v

theorem Invisible.lanewise (hR : Invisible R) (h : R s s') (b : Bank) (d s1 : Byte) (s2 : Word)
    (op : Lanes → Lanes → Except Cause Lanes) : SameEnd R (s.lanewise b d s1 s2 op) (s'.lanewise b d s1 s2 op) :=
  .bind rfl fun k => .bind rfl fun _ => .bind rfl fun _ => .bind (by rw [hR.readVector h, hR.readVector h]) fun v =>
    hR.writeVector h b k v

/-- Related states execute an instruction to related states, where it reads no flag or FLAGS agrees. -/
theorem Invisible.exec (hR : Invisible R) (h : R s s') (i : Instr) (hf : i.readsFlags → s.flags = s'.flags) :
    ∃ t t', Machine.exec i s = .next t ∧ Machine.exec i s' = .next t' ∧ R t t' := by
  cases i with
  | halt => exact ⟨_, _, rfl, rfl, hR.halt h⟩
  | jmp a => exact hR.conclude h (hR.branch h a rfl)
  | bz a | bnz a | blt a | bge a =>
    have hflags := hf (by simp [Instr.readsFlags, Instr.opcode])
    exact hR.conclude h (hR.branch h a (by simp only [State.flagZ, State.flagN, State.flagP, hflags]))
  | niter n => exact hR.conclude h (.bind rfl fun k => hR.writeNiter h k 0)
  | nnext n =>
    refine hR.conclude h (.bind rfl fun k => .bind (by rw [hR.graph h, hR.readR h]) fun u =>
      .bind (by rw [hR.graph h]) fun lo => .bind (by rw [hR.graph h]) fun hi => ?_)
    dsimp only
    rw [hR.readNiter h]
    split
    · refine .bind (by rw [hR.graph h]) fun nb => .bind (by rw [hR.graph h]) fun w => ?_
      exact hR.setZ (hR.writeNiter (hR.writeR (hR.writeR h rnbr nb) rval w) k _) false
    · exact hR.setZ h true
  | eiter => exact ⟨_, _, rfl, rfl, hR.writeR (hR.writeEiter h 0) rnode 0⟩
  | enext =>
    refine hR.conclude h ?_
    dsimp only
    rw [hR.readR h, hR.graph h, hR.eiter h]
    split
    · exact rfl
    · refine .bind rfl fun p => ?_
      split
      · exact hR.setZ (hR.writeEiter (hR.writeR h rnode _) _) true
      · refine .bind rfl fun lo => .bind rfl fun nb => .bind rfl fun w => ?_
        exact hR.setZ (hR.writeEiter (hR.writeR (hR.writeR (hR.writeR h rnode _) rnbr nb) rval w) _) false
  | hase =>
    exact hR.conclude h (.bind (by rw [hR.graph h, hR.readR h]) fun u =>
      .bind (by rw [hR.graph h, hR.readR h]) fun hit => hR.setZ h _)
  | deg r =>
    exact hR.conclude h (.bind rfl fun k => .bind (by rw [hR.graph h, hR.readR h]) fun u =>
      .bind (by rw [hR.graph h]) fun v => hR.writeR h rval v)
  | add b d s1 s2 | sub b d s1 s2 | mul b d s1 s2 | div b d s1 s2 => exact hR.conclude h (hR.arith h b d s1 s2 _)
  | cmp b s1 x =>
    refine hR.conclude h (.bind rfl fun k => .bind (hR.src2 h b x) fun y => ?_)
    rw [hR.readScalar h]
    exact hR.setFlags h _
  | mov b d x => exact hR.conclude h (.bind rfl fun k => .bind (hR.src1 h b x) fun v => hR.writeScalar h b k v)
  | movc b d x =>
    refine hR.conclude h (.bind rfl fun k => .bind rfl fun j => ?_)
    rw [hR.readScalar h]
    exact hR.writeScalar h b k _
  | ld b d x =>
    refine hR.conclude h (.bind rfl fun k => .bind (hR.effAddr h 1 x) fun a => ?_)
    rw [hR.readMem h]
    exact hR.writeScalar h b k _
  | st b d x =>
    refine hR.conclude h (.bind rfl fun k => .bind (hR.effAddr h 1 x) fun a => ?_)
    rw [hR.readScalar h]
    exact hR.writeMem h a _
  | fpush r =>
    exact hR.conclude h (.bind rfl fun k => .bind (by rw [hR.nextQ h, hR.readR h]) fun q => hR.setNextQ h q)
  | fpop r =>
    exact hR.conclude h (.bind rfl fun k => .bind (by rw [hR.currentQ h]) fun p =>
      hR.writeR (hR.setCurrentQ h p.2) k p.1)
  | fempty => exact hR.conclude h (.bind (by rw [hR.currentQ h]) fun e => hR.setZ h e)
  | fswap => exact ⟨_, _, rfl, rfl, hR.swapRoles h⟩
  | ffill => exact hR.conclude h (.bind (by rw [hR.currentQ h, hR.graph h]) fun q => hR.setCurrentQ h q)
  | vadd b d s1 s2 | vsub b d s1 s2 | vmul b d s1 s2 | vdiv b d s1 s2 => exact hR.conclude h (hR.lanewise h b d s1 s2 _)
  | vld b d x =>
    refine hR.conclude h (.bind rfl fun k => .bind (hR.effAddr h 4 x) fun a => ?_)
    rw [hR.readMem4 h]
    exact hR.writeVector h b k _
  | vst b d x =>
    refine hR.conclude h (.bind rfl fun k => .bind (hR.effAddr h 4 x) fun a => ?_)
    rw [hR.readVector h]
    exact hR.writeMem4 h a _
  | vset b d x => exact hR.conclude h (.bind rfl fun k => .bind (hR.src1 h b x) fun v => hR.writeVector h b k _)
  | vsum b d v =>
    refine hR.conclude h (.bind rfl fun k => .bind rfl fun j => ?_)
    rw [hR.readScalar h, hR.readVector h]
    exact hR.writeScalar h b k _
  | parallel | barrier | lock | unlock => exact ⟨_, _, rfl, rfl, h⟩

end Invisible

/-! #### FLAGS -/

/-- Equal but for FLAGS. -/
def EqualButFlags (s s' : State) : Prop := ∃ v, s' = { s with flags := v }

/-- Every named operation writes FLAGS or passes it on, so a difference there stays there. -/
theorem invisible_equalButFlags : Invisible EqualButFlags where
  readScalar := by rintro s _ ⟨v, rfl⟩ b k; cases b <;> rfl
  readVector := by rintro s _ ⟨v, rfl⟩ b k; cases b <;> rfl
  pc := by rintro s _ ⟨v, rfl⟩; rfl
  niter := by rintro s _ ⟨v, rfl⟩; rfl
  eiter := by rintro s _ ⟨v, rfl⟩; rfl
  q := by rintro s _ ⟨v, rfl⟩; rfl
  cur := by rintro s _ ⟨v, rfl⟩; rfl
  graph := by rintro s _ ⟨v, rfl⟩; rfl
  mem := by rintro s _ ⟨v, rfl⟩; rfl
  writeScalar := by rintro s _ ⟨v, rfl⟩ b k x; cases b <;> exact ⟨v, rfl⟩
  writeVector := by rintro s _ ⟨v, rfl⟩ b k x; cases b <;> exact ⟨v, rfl⟩
  setPc := by rintro s _ ⟨v, rfl⟩ a; exact ⟨v, rfl⟩
  writeNiter := by rintro s _ ⟨v, rfl⟩ k x; exact ⟨v, rfl⟩
  writeEiter := by rintro s _ ⟨v, rfl⟩ x; exact ⟨v, rfl⟩
  setZ := by rintro s _ ⟨v, rfl⟩ z; exact ⟨_, rfl⟩
  setFlags := by rintro s _ ⟨v, rfl⟩ x; exact ⟨x, rfl⟩
  writeMem := by rintro s _ ⟨v, rfl⟩ a x; exact ⟨v, rfl⟩
  writeMem4 := by rintro s _ ⟨v, rfl⟩ a x; exact ⟨v, rfl⟩
  setCurrentQ := by rintro s _ ⟨v, rfl⟩ p; exact ⟨v, rfl⟩
  setNextQ := by rintro s _ ⟨v, rfl⟩ p; exact ⟨v, rfl⟩
  swapRoles := by rintro s _ ⟨v, rfl⟩; exact ⟨v, rfl⟩
  stop := by rintro s _ ⟨v, rfl⟩ p c x; exact ⟨v, rfl⟩

/-- Settles O21: states equal but for FLAGS execute such an instruction to states equal but for FLAGS. -/
theorem onlyConditionalBranchesReadFlags : Obligations.OnlyConditionalBranchesReadFlags := by
  intro i s t v hbz hbnz hblt hbge h
  have hf : ¬ i.readsFlags := by simp [Instr.readsFlags, hbz, hbnz, hblt, hbge]
  obtain ⟨u, u', hu, hu', v', rfl⟩ :=
    invisible_equalButFlags.exec (s := s) (s' := { s with flags := v }) ⟨v, rfl⟩ i fun hr => absurd hr hf
  obtain rfl : u = t := by simpa [hu] using h
  exact ⟨v', hu'⟩

/-! #### The storage cells of Rzero and Fzero -/

/-- The integer port reads the masked state as the state: Rzero reads 0 from any cell (10_state.md R31). -/
theorem State.readR_maskZeroCells (s : State) (k : Fin 24) : s.maskZeroCells.readR k = s.readR k := by
  by_cases hk : k = rzero
  · simp [State.readR, hk]
  · have hne : 20 ≠ k.val := fun e => hk (Fin.ext e.symm)
    simp [State.readR, hk, State.maskZeroCells, hne]

/-- The float port reads the masked state as the state: Fzero reads 0 from any cell (R33). -/
theorem State.readF_maskZeroCells (s : State) (k : Fin 18) : s.maskZeroCells.readF k = s.readF k := by
  by_cases hk : k = fzero
  · simp [State.readF, hk]
  · have hne : 17 ≠ k.val := fun e => hk (Fin.ext e.symm)
    simp [State.readF, hk, State.maskZeroCells, hne]

theorem State.readScalar_maskZeroCells (s : State) (b : Bank) (k : Fin b.scalars) :
    s.maskZeroCells.readScalar b k = s.readScalar b k := by
  cases b with
  | int => exact s.readR_maskZeroCells k
  | float => exact s.readF_maskZeroCells k

/-- Clearing a cell last, it does not matter whether it was cleared before another write too. -/
theorem set_cleared_set {n : Nat} (xs : Vector Word n) {i z : Nat} (hi : i < n) (hz : z < n) (v : Word) :
    ((xs.set z 0#32).set i v).set z 0#32 = (xs.set i v).set z 0#32 := by
  ext j hj
  by_cases hzj : z = j
  · simp [hzj]
  · by_cases hij : i = j <;> simp [hzj, hij]

/-- Masking before a register write too changes nothing of the masked result. -/
theorem State.maskZeroCells_writeScalar (s : State) (b : Bank) (k : Fin b.scalars) (v : Word) :
    (s.maskZeroCells.writeScalar b k v).maskZeroCells = (s.writeScalar b k v).maskZeroCells := by
  cases b with
  | int => simp [State.maskZeroCells, State.writeR, set_cleared_set]
  | float => simp [State.maskZeroCells, State.writeF, set_cleared_set]

/-- Equal but for the storage cells of Rzero and Fzero. -/
def EqualButZeroCells (s s' : State) : Prop := s.maskZeroCells = s'.maskZeroCells

/-- What reads the masked state as the state reads related states alike. -/
theorem EqualButZeroCells.read_eq {α : Type} {s s' : State} (h : EqualButZeroCells s s') (f : State → α)
    (hf : ∀ u, f u.maskZeroCells = f u) : f s = f s' := by
  rw [← hf s, ← hf s', show s.maskZeroCells = s'.maskZeroCells from h]

/-- What works beside the two cells keeps states related. -/
theorem EqualButZeroCells.map {s s' : State} (h : EqualButZeroCells s s') (g : State → State)
    (hg : ∀ u, (g u).maskZeroCells = g u.maskZeroCells) : EqualButZeroCells (g s) (g s') := by
  unfold EqualButZeroCells
  rw [hg, hg, show s.maskZeroCells = s'.maskZeroCells from h]

/-- The ports hide the two cells, and every other operation works beside them. -/
theorem invisible_equalButZeroCells : Invisible EqualButZeroCells where
  readScalar h b k := h.read_eq (State.readScalar · b k) fun u => u.readScalar_maskZeroCells b k
  readVector h b k := h.read_eq (State.readVector · b k) fun _ => by cases b <;> rfl
  pc h := h.read_eq State.pc fun _ => rfl
  niter h := h.read_eq State.niter fun _ => rfl
  eiter h := h.read_eq State.eiter fun _ => rfl
  q h := h.read_eq State.q fun _ => rfl
  cur h := h.read_eq State.cur fun _ => rfl
  graph h := h.read_eq State.graph fun _ => rfl
  mem h := h.read_eq State.mem fun _ => rfl
  writeScalar {s s'} h b k v := by
    unfold EqualButZeroCells
    rw [← s.maskZeroCells_writeScalar, ← s'.maskZeroCells_writeScalar, show s.maskZeroCells = s'.maskZeroCells from h]
  writeVector h b k v := h.map (State.writeVector · b k v) fun _ => by cases b <;> rfl
  setPc h a := h.map (State.setPc · a) fun _ => rfl
  writeNiter h k v := h.map (State.writeNiter · k v) fun _ => rfl
  writeEiter h v := h.map (State.writeEiter · v) fun _ => rfl
  setZ h z := h.map (State.setZ · z) fun _ => rfl
  setFlags h v := h.map (State.setFlags · v) fun _ => rfl
  writeMem h a v := h.map (State.writeMem · a v) fun _ => rfl
  writeMem4 h a v := h.map (State.writeMem4 · a v) fun _ => rfl
  setCurrentQ h p := h.map (State.setCurrentQ · p) fun _ => rfl
  setNextQ h p := h.map (State.setNextQ · p) fun _ => rfl
  swapRoles h := h.map State.swapRoles fun _ => rfl
  stop h p c x := h.map (State.stop · p c x) fun _ => rfl

theorem EqualButZeroCells.exec {s s' : State} (h : EqualButZeroCells s s') (i : Instr) :
    ∃ t t', Machine.exec i s = .next t ∧ Machine.exec i s' = .next t' ∧ EqualButZeroCells t t' :=
  invisible_equalButZeroCells.exec h i fun _ => h.read_eq State.flags fun _ => rfl

/-! #### A tick, case by case (30_encoding.md R130) -/

section Tick
variable {abort : State → Bool} {s : State}

theorem tick_of_not_running (hp : s.pstate ≠ .running) : tick abort s = .next s := by simp [tick, hp]

theorem tick_of_off_end (hp : s.pstate = .running) (hpc : ¬ s.pc.toNat < 8192) : tick abort s = .next s.haltOffEnd := by
  simp only [tick, hp, ne_eq, not_true, if_false, hpc, not_false_iff, if_true]

theorem tick_of_decode_error {e : DecodeError} (hp : s.pstate = .running) (hpc : s.pc.toNat < 8192)
    (hd : decode s.fetchWord = .error e) : tick abort s = .next (s.decodeFault s.fetchWord) := by
  simp only [tick, hp, ne_eq, not_true, if_false, hpc, hd]

theorem tick_of_exec {i : Instr} {u : State} (hp : s.pstate = .running) (hpc : s.pc.toNat < 8192)
    (hd : decode s.fetchWord = .ok i) (hu : exec i (s.beforeExecute s.fetchWord) = .next u) :
    tick abort s = .next (u.countClock.sampleAbort abort s.pc) := by
  simp only [tick, hp, ne_eq, not_true, if_false, hpc, hd, hu]

end Tick

theorem EqualButZeroCells.sampleAbort {s s' : State} (h : EqualButZeroCells s s') (x : Word) :
    EqualButZeroCells (s.sampleAbort State.hostAbort x) (s'.sampleAbort State.hostAbort x) := by
  have hp : s.pstate = s'.pstate := h.read_eq State.pstate fun _ => rfl
  have ha : s.hostAbort = s'.hostAbort := h.read_eq State.hostAbort fun _ => rfl
  unfold State.sampleAbort
  rw [hp, ha]
  split
  · exact invisible_equalButZeroCells.stop h _ _ _
  · exact h

/-- Related states step to related states: fetch, decode and abort read neither cell. -/
theorem EqualButZeroCells.step {s s' : State} (h : EqualButZeroCells s s') :
    ∃ t t', Machine.step s = .next t ∧ Machine.step s' = .next t' ∧ EqualButZeroCells t t' := by
  have hps : s'.pstate = s.pstate := (h.read_eq State.pstate fun _ => rfl).symm
  have hpcs : s'.pc = s.pc := (h.read_eq State.pc fun _ => rfl).symm
  have hw : s'.fetchWord = s.fetchWord := (h.read_eq State.fetchWord fun _ => rfl).symm
  by_cases hp : s.pstate = .running
  · by_cases hpc : s.pc.toNat < 8192
    · cases hd : decode s.fetchWord with
      | error e =>
        exact ⟨_, _, tick_of_decode_error hp hpc hd, tick_of_decode_error (hps.trans hp) (hpcs ▸ hpc) (hw ▸ hd),
          hw ▸ h.map (State.decodeFault · s.fetchWord) fun _ => rfl⟩
      | ok i =>
        have hb : EqualButZeroCells (s.beforeExecute s.fetchWord) (s'.beforeExecute s'.fetchWord) :=
          hw ▸ h.map (State.beforeExecute · s.fetchWord) fun _ => rfl
        obtain ⟨u, u', hu, hu', huu⟩ := hb.exec i
        have hc : EqualButZeroCells u.countClock u'.countClock := huu.map State.countClock fun _ => rfl
        refine ⟨_, _, tick_of_exec hp hpc hd hu, tick_of_exec (hps.trans hp) (hpcs ▸ hpc) (hw ▸ hd) hu', ?_⟩
        rw [hpcs]
        exact hc.sampleAbort s.pc
    · exact ⟨_, _, tick_of_off_end hp hpc, tick_of_off_end (hps.trans hp) (hpcs ▸ hpc),
        h.map State.haltOffEnd fun _ => rfl⟩
  · exact ⟨s, s', tick_of_not_running hp, tick_of_not_running (hps ▸ hp), h⟩

/-- Settles O25: the ports at Rzero and Fzero, and the two cells hidden from every instruction and every step. -/
theorem zeroRegistersReadZeroAndAreUnobservable : Obligations.ZeroRegistersReadZeroAndAreUnobservable := by
  refine ⟨fun s v => ⟨by simp, State.readR_rzero _, by simp, State.readF_fzero _⟩, fun i s s' t t' h ht ht' => ?_,
    fun s s' t t' h ht ht' => ?_⟩
  · obtain ⟨u, u', hu, hu', huu⟩ := EqualButZeroCells.exec h i
    obtain rfl : u = t := by simpa [hu] using ht
    obtain rfl : u' = t' := by simpa [hu'] using ht'
    exact huu
  · obtain ⟨u, u', hu, hu', huu⟩ := EqualButZeroCells.step h
    obtain rfl : u = t := by simpa [hu] using ht
    obtain rfl : u' = t' := by simpa [hu'] using ht'
    exact huu

end Sys2Proof.Machine

/-! ### The memories: load, the parts no step writes, and a store followed by a load (20_memory.md R82, R97, R100 to R102) -/

namespace Sys2Proof.Machine

/-! #### The load port (70_reset_and_hazards.md R403) -/

/-- A list written over an empty memory from index 0 reads back, and 0 past its end. -/
theorem Memory.read_writeList_empty {w : Nat} (vs : List (BitVec w)) (a : Nat) :
    Memory.read (Memory.writeList [] 0 vs) a = vs.getD a 0 := by
  rw [Memory.read_writeList]
  by_cases ha : a < vs.length
  · simp [ha]
  · rw [if_neg (by omega), List.getD_eq_default _ _ (by omega)]
    rfl

theorem State.load_of_accepted (s : State) {img : Image} (h : img.accepted) : s.load img = s.loadAccepted img := if_pos h

theorem State.load_of_not_accepted (s : State) {img : Image} (h : ¬ img.accepted) : s.load img = s := if_neg h

/-- An image over a limit the spec states is not accepted (20_memory.md R101). -/
theorem Image.not_accepted_of_over_limit {img : Image}
    (h : 8192 < img.code.length ∨ 65536 < img.mem.length ∨ Config.maxNodes < img.rowIndex.length - 1 ∨
      Config.maxEdges < img.colIndex.length) : ¬ img.accepted := by
  rintro ⟨hcode, hmem, -, hnodes, hedges, -⟩
  rcases h with h | h | h | h
  · exact hcode.not_gt h
  · exact hmem.not_gt h
  · exact hnodes.not_gt h
  · exact hedges.not_gt h

/-- Settles O5: an accepted image is written over empty memories, and every limit the spec states is part of acceptance. -/
theorem loadReplacesMemoriesAndGraphOnly : Obligations.LoadReplacesMemoriesAndGraphOnly := by
  intro s img
  refine ⟨fun h => ?_, s.load_of_not_accepted, fun h => s.load_of_not_accepted (Image.not_accepted_of_over_limit h),
    fun hcode hmem hrow hnodes hedges hvalues => ⟨hcode, hmem, hrow, hnodes, hedges, hvalues⟩⟩
  rw [s.load_of_accepted h]
  exact ⟨Memory.read_writeList_empty img.code, Memory.read_writeList_empty img.mem, rfl, rfl,
    Memory.wf_writeList _ _ 0 Memory.wf_nil, Memory.wf_writeList _ _ 0 Memory.wf_nil⟩

/-! #### The graph and program memory along a step (20_memory.md R95, R97) -/

/-- No instruction has the graph in its footprint. -/
theorem not_mayWrite_graph (i : Instr) (s : State) : ¬ i.mayWrite s .graph :=
  fun h => by simpa using mayWrite_control h rfl rfl

/-- No instruction has program memory in its footprint. -/
theorem not_mayWrite_program (i : Instr) (s : State) : ¬ i.mayWrite s .program :=
  fun h => by simpa using mayWrite_control h rfl rfl

/-- An execute, completed or in error, leaves the graph and program memory. -/
theorem exec_graph_prog {i : Instr} {s t : State} (h : exec i s = .next t) : t.graph = s.graph ∧ t.prog = s.prog :=
  ⟨exec_same_of_not_mayWrite (p := .graph) h (by simp) (not_mayWrite_graph i s),
    exec_same_of_not_mayWrite (p := .program) h (by simp) (not_mayWrite_program i s)⟩

/-- The hook point writes the stop report alone. -/
theorem Part.same_sampleAbort (s : State) (abort : State → Bool) (x : Word) {p : Part} (h : p ≠ .stopReport) :
    p.Same s (s.sampleAbort abort x) := by
  rcases s.sampleAbort_cases abort x with he | ⟨-, -, he⟩ <;> rw [he]
  · exact Part.Same.refl s p
  · exact Part.same_stop s _ _ x h

/-- A tick leaves the graph and program memory under every abort function. -/
theorem tick_graph_prog {abort : State → Bool} {s t : State} (h : tick abort s = .next t) :
    t.graph = s.graph ∧ t.prog = s.prog := by
  rcases tick_eq_next h with ⟨-, rfl⟩ | ⟨-, -, rfl⟩ | ⟨-, -, -, rfl⟩ | ⟨-, -, i, u, -, hu, rfl⟩
  · exact ⟨rfl, rfl⟩
  · exact ⟨rfl, rfl⟩
  · exact ⟨rfl, rfl⟩
  · obtain ⟨hgraph, hprog⟩ := exec_graph_prog hu
    have hookGraph : (u.countClock.sampleAbort abort s.pc).graph = u.graph :=
      Part.same_sampleAbort (p := .graph) u.countClock abort s.pc (by simp)
    have hookProg : (u.countClock.sampleAbort abort s.pc).prog = u.prog :=
      Part.same_sampleAbort (p := .program) u.countClock abort s.pc (by simp)
    exact ⟨hookGraph.trans hgraph, hookProg.trans hprog⟩

/-- Settles O18: a step is a tick, and only its execute could write them. -/
theorem graphAndProgramAreNeverWritten : Obligations.GraphAndProgramAreNeverWritten := fun _ _ h => tick_graph_prog h

/-! #### Loads and stores whose checks pass (43_memory_ops.md R260 to R262) -/

/-- An immediate below 65536 is the address of a one-cell access. -/
theorem State.effAddr_imm (s : State) {v : Word} (h : v.toNat < 65536) : s.effAddr 1 (.imm v) = .ok v.toNat := by
  have hv : v.toInt = v.toNat := BitVec.toInt_eq_toNat_of_lt (by omega)
  rw [State.effAddr_of_ok (s.src1_imm .int v) (by omega) (by omega), hv, Int.toNat_natCast]

/-- LD with a register of the bank and an address in data memory writes the cell to the register. -/
theorem exec_ld_of_ok {s : State} {b : Bank} {d : Byte} {x : Src1} {k : Fin b.scalars} {a : Nat} (hk : k.val = d.toNat)
    (ha : s.effAddr 1 x = .ok a) : exec (.ld b d x) s = .next (s.writeScalar b k (s.readMem a)) := by
  show execLd b d x s = _
  simp [execLd, scalarIndex_eq_ok.2 hk, ha]

/-- ST with a register of the bank and an address in data memory writes what the register reads to the cell. -/
theorem exec_st_of_ok {s : State} {b : Bank} {d : Byte} {x : Src1} {k : Fin b.scalars} {a : Nat} (hk : k.val = d.toNat)
    (ha : s.effAddr 1 x = .ok a) : exec (.st b d x) s = .next (s.writeMem a (s.readScalar b k)) := by
  show execSt b d x s = _
  simp [execSt, scalarIndex_eq_ok.2 hk, ha]

/-- Settles O46: both accesses pass their checks at the same cell, and the load's register cell takes what the cell holds. -/
theorem storeThenLoadMovesThePattern : Obligations.StoreThenLoadMovesThePattern := by
  intro s t u b b' d d' v k k' hk hk' hv hst hld
  rw [exec_st_of_ok hk (s.effAddr_imm hv), Host.Outcome.next.injEq] at hst
  rw [exec_ld_of_ok hk' (t.effAddr_imm hv), Host.Outcome.next.injEq] at hld
  have hcell : t.readMem v.toNat = s.readScalar b k := by
    rw [← hst, State.readMem_writeMem, if_pos rfl]
  rw [hcell] at hld
  subst hld
  cases b' with
  | int => simp
  | float => simp

end Sys2Proof.Machine

/-! ### The word: packing, the opcode map read both ways, the reserved flag bits (30_encoding.md R110 to R122) -/

namespace Sys2Proof

/-! #### Packing the five fields (R110, R122) -/

theorem getLsbD_packFields (f : Fields) (i : Nat) :
    (packFields f).getLsbD i =
      if i < 32 then f.a2.getLsbD i else if i < 40 then f.a1.getLsbD (i - 32)
      else if i < 48 then f.a0.getLsbD (i - 40) else if i < 56 then f.flags.getLsbD (i - 48) else f.op.getLsbD (i - 56) := by
  show BitVec.getLsbD (f.op ++ f.flags ++ f.a0 ++ f.a1 ++ f.a2) i = _
  simp only [BitVec.getLsbD_append, Nat.sub_sub]
  grind

/-- The word of five fields is the shift-and-or word of R122. -/
theorem packFields_eq_or (f : Fields) :
    packFields f = (f.op.setWidth 64 <<< 56) ||| (f.flags.setWidth 64 <<< 48) ||| (f.a0.setWidth 64 <<< 40) |||
      (f.a1.setWidth 64 <<< 32) ||| f.a2.setWidth 64 := by
  refine BitVec.eq_of_getLsbD_eq fun i hi => ?_
  rw [getLsbD_packFields]
  simp only [BitVec.getLsbD_or, BitVec.getLsbD_shiftLeft, BitVec.getLsbD_setWidth]
  grind

@[simp] theorem fieldsOf_packFields (f : Fields) : fieldsOf (packFields f) = f := by
  obtain ⟨op, flags, a0, a1, a2⟩ := f
  simp only [fieldsOf, Fields.mk.injEq]
  refine ⟨?_, ?_, ?_, ?_, ?_⟩
  all_goals
    refine BitVec.eq_of_getLsbD_eq fun i hi => ?_
    rw [BitVec.getLsbD_extractLsb', getLsbD_packFields]
    grind

/-- A packed word whose opcode field is an opcode's byte decodes to that opcode's instruction. -/
theorem decode_packFields {o : Opcode} {f : Fields} (h : f.op = o.byte) : decode (packFields f) = .ok (assemble o f) := by
  rw [decode_of_ofByte? (o := o) (by rw [fieldsOf_packFields, h, Opcode.ofByte?_byte]), fieldsOf_packFields]

/-- The per-instruction lemmas together: the decoder assembles every instruction from the fields it is encoded with. -/
theorem assembleFields : ∀ i : Instr, Laws.AssembleFields.Statement i
  | .halt => Laws.AssembleFields.halt
  | .jmp t => Laws.AssembleFields.jmp t
  | .bz t => Laws.AssembleFields.bz t
  | .bnz t => Laws.AssembleFields.bnz t
  | .blt t => Laws.AssembleFields.blt t
  | .bge t => Laws.AssembleFields.bge t
  | .niter k => Laws.AssembleFields.niter k
  | .nnext k => Laws.AssembleFields.nnext k
  | .eiter => Laws.AssembleFields.eiter
  | .enext => Laws.AssembleFields.enext
  | .hase => Laws.AssembleFields.hase
  | .deg r => Laws.AssembleFields.deg r
  | .add b d s1 s2 => Laws.AssembleFields.add b d s1 s2
  | .sub b d s1 s2 => Laws.AssembleFields.sub b d s1 s2
  | .mul b d s1 s2 => Laws.AssembleFields.mul b d s1 s2
  | .div b d s1 s2 => Laws.AssembleFields.div b d s1 s2
  | .cmp b s1 s2 => Laws.AssembleFields.cmp b s1 s2
  | .mov b d s => Laws.AssembleFields.mov b d s
  | .movc b d s => Laws.AssembleFields.movc b d s
  | .ld b d a => Laws.AssembleFields.ld b d a
  | .st b d a => Laws.AssembleFields.st b d a
  | .fpush r => Laws.AssembleFields.fpush r
  | .fpop r => Laws.AssembleFields.fpop r
  | .fempty => Laws.AssembleFields.fempty
  | .fswap => Laws.AssembleFields.fswap
  | .ffill => Laws.AssembleFields.ffill
  | .vadd b d s1 s2 => Laws.AssembleFields.vadd b d s1 s2
  | .vsub b d s1 s2 => Laws.AssembleFields.vsub b d s1 s2
  | .vmul b d s1 s2 => Laws.AssembleFields.vmul b d s1 s2
  | .vdiv b d s1 s2 => Laws.AssembleFields.vdiv b d s1 s2
  | .vld b d a => Laws.AssembleFields.vld b d a
  | .vst b d a => Laws.AssembleFields.vst b d a
  | .vset b d s => Laws.AssembleFields.vset b d s
  | .vsum b d v => Laws.AssembleFields.vsum b d v
  | .parallel => Laws.AssembleFields.parallel
  | .barrier => Laws.AssembleFields.barrier
  | .lock => Laws.AssembleFields.lock
  | .unlock => Laws.AssembleFields.unlock

/-- Settles O6: the packed fields come back, and the decoder assembles the instruction from them. -/
theorem decodeInvertsEncode : Obligations.DecodeInvertsEncode := by
  intro i
  obtain ⟨hop, hassemble⟩ := assembleFields i
  rw [encode, decode_packFields hop, hassemble]

/-- Settles O7: the fields come back from the word, so decoder and latches see the fields that were packed. -/
theorem packedFieldsDecodeBack : Obligations.PackedFieldsDecodeBack := by
  intro o flags a0 a1 a2 s f
  refine ⟨packFields_eq_or f, fieldsOf_packFields f, decode_packFields rfl, ?_, ?_, ?_, ?_, fun hI hF => ?_⟩
  · rw [Machine.State.latchDecoded_isa, fieldsOf_packFields]
  · rw [Machine.State.latchDecoded_a0, fieldsOf_packFields]
  · rw [Machine.State.latchDecoded_a1, fieldsOf_packFields]
  · rw [Machine.State.latchDecoded_a2, fieldsOf_packFields]
  · have himm : f.immediate = true := hI
    have hflt : f.floating = true := hF
    rw [Machine.State.latchDecoded_fa, fieldsOf_packFields, himm, hflt, Bool.and_self, if_pos rfl]

/-! #### The opcode map fills 0x00 to 0x25 (R113, R114) -/

/-- In the order of R113 the opcode bytes count up from 0. -/
theorem Opcode.map_byte_all : Opcode.all.map Opcode.byte = (List.range 0x26).map (BitVec.ofNat 8) := by decide

theorem Opcode.byte_lt (o : Opcode) : o.byte.toNat < 0x26 := by cases o <;> decide

/-- The bytes in the map are those below 0x26. -/
theorem Opcode.exists_byte_eq_iff {v : Byte} : (∃ o : Opcode, o.byte = v) ↔ v.toNat < 0x26 := by
  constructor
  · rintro ⟨o, rfl⟩
    exact o.byte_lt
  · intro h
    have hv : v ∈ Opcode.all.map Opcode.byte := by
      rw [Opcode.map_byte_all]
      exact List.mem_map.2 ⟨v.toNat, List.mem_range.2 h, by rw [BitVec.ofNat_toNat, BitVec.setWidth_eq]⟩
    obtain ⟨o, -, ho⟩ := List.mem_map.1 hv
    exact ⟨o, ho⟩

theorem Opcode.ofByte?_eq_none {v : Byte} (h : 0x26 ≤ v.toNat) : Opcode.ofByte? v = none :=
  Option.eq_none_iff_forall_ne_some.2 fun o ho =>
    h.not_gt (Opcode.exists_byte_eq_iff.1 ⟨o, Opcode.byte_of_ofByte? ho⟩)

/-- A word whose opcode byte is outside the map is rejected with that byte. -/
theorem decode_of_illegal {w : ProgWord} (h : 0x26 ≤ (fieldsOf w).op.toNat) :
    decode w = .error (.unknownOpcode (fieldsOf w).op) := by
  simp only [decode, Opcode.ofByte?_eq_none h]

/-- A word decodes exactly where its opcode byte is in the map. -/
theorem decode_isOk_iff {w : ProgWord} : (∃ i, decode w = .ok i) ↔ (fieldsOf w).op.toNat < 0x26 := by
  constructor
  · rintro ⟨i, hi⟩
    by_contra h
    rw [decode_of_illegal (Nat.le_of_not_lt h)] at hi
    cases hi
  · intro h
    obtain ⟨o, ho⟩ := Opcode.exists_byte_eq_iff.2 h
    exact ⟨_, decode_of_ofByte? (o := o) (by rw [← ho, Opcode.ofByte?_byte])⟩

/-! #### The reserved flag bits (R112) -/

/-- The fields with the reserved flag bits cleared. -/
def Fields.clearReserved (f : Fields) : Fields := { f with flags := f.flags &&& 0x03#8 }

/-- Word bits 50 to 55 are the reserved flag bits. -/
theorem fieldsOf_and_mask (w : ProgWord) : fieldsOf (w &&& 0xFF03FFFFFFFFFFFF#64) = (fieldsOf w).clearReserved := by
  simp only [fieldsOf, Fields.clearReserved, BitVec.extractLsb'_and, Fields.mk.injEq]
  exact ⟨BitVec.and_allOnes, rfl, BitVec.and_allOnes, BitVec.and_allOnes, BitVec.and_allOnes⟩

@[simp] theorem Fields.op_clearReserved (f : Fields) : f.clearReserved.op = f.op := rfl
@[simp] theorem Fields.a0_clearReserved (f : Fields) : f.clearReserved.a0 = f.a0 := rfl
@[simp] theorem Fields.a1_clearReserved (f : Fields) : f.clearReserved.a1 = f.a1 := rfl
@[simp] theorem Fields.a2_clearReserved (f : Fields) : f.clearReserved.a2 = f.a2 := rfl

@[simp] theorem Fields.immediate_clearReserved (f : Fields) : f.clearReserved.immediate = f.immediate := by
  simp [Fields.immediate, Fields.clearReserved]

@[simp] theorem Fields.floating_clearReserved (f : Fields) : f.clearReserved.floating = f.floating := by
  simp [Fields.floating, Fields.clearReserved]

@[simp] theorem Fields.bank_clearReserved (f : Fields) : f.clearReserved.bank = f.bank := by
  simp only [Fields.bank, Fields.floating_clearReserved]

@[simp] theorem Fields.src2_clearReserved (f : Fields) : f.clearReserved.src2 = f.src2 := by
  simp only [Fields.src2, Fields.immediate_clearReserved, Fields.a2_clearReserved]

@[simp] theorem Fields.src1_clearReserved (f : Fields) : f.clearReserved.src1 = f.src1 := by
  simp only [Fields.src1, Fields.immediate_clearReserved, Fields.a1_clearReserved, Fields.a2_clearReserved]

/-- No opcode's row reads a reserved flag bit: the decoder reads the flag byte through I and F alone. -/
theorem assemble_clearReserved (o : Opcode) (f : Fields) : assemble o f.clearReserved = assemble o f := by
  cases o <;> simp [assemble]

theorem decode_and_mask (w : ProgWord) : decode (w &&& 0xFF03FFFFFFFFFFFF#64) = decode w := by
  simp only [decode, fieldsOf_and_mask, assemble_clearReserved, Fields.op_clearReserved]

theorem Machine.State.latchDecoded_and_mask (s : Machine.State) (w : ProgWord) :
    s.latchDecoded (w &&& 0xFF03FFFFFFFFFFFF#64) = s.latchDecoded w := by
  simp [Machine.State.latchDecoded, fieldsOf_and_mask]

/-- Settles O10: decoder and latches take a word as they take it with its reserved flag bits cleared. -/
theorem reservedFlagBitsAreIgnored : Obligations.ReservedFlagBitsAreIgnored := by
  intro w v h
  refine ⟨?_, fun s => ?_⟩
  · rw [← decode_and_mask w, h, decode_and_mask]
  · rw [← s.latchDecoded_and_mask w, h, s.latchDecoded_and_mask]

end Sys2Proof

/-! ### What a step executes, counts and latches, and what the host sees of it (30_encoding.md R119 to R136) -/

namespace Sys2Proof.Machine

/-! #### Every execute and every tick answers a next state (R136; 60_exceptions.md R370) -/

theorem conclude_next (s : State) (r : Except Cause State) : ∃ t, conclude s r = .next t := by
  cases r with
  | ok t => exact ⟨t, rfl⟩
  | error c => exact ⟨s.raise c, rfl⟩

theorem exec_next (i : Instr) (s : State) : ∃ t, exec i s = .next t := by
  by_cases hi : i = .halt
  · subst hi
    exact ⟨s.halt, rfl⟩
  · obtain ⟨r, he, -⟩ := exec_checked i s hi
    rw [he]
    exact conclude_next s r

theorem tick_next (abort : State → Bool) (s : State) : ∃ t, tick abort s = .next t := by
  by_cases hp : s.pstate = .running
  · by_cases hpc : s.pc.toNat < 8192
    · cases hd : decode s.fetchWord with
      | error e => exact ⟨_, tick_of_decode_error hp hpc hd⟩
      | ok i =>
        obtain ⟨u, hu⟩ := exec_next i (s.beforeExecute s.fetchWord)
        exact ⟨_, tick_of_exec hp hpc hd hu⟩
    · exact ⟨_, tick_of_off_end hp hpc⟩
  · exact ⟨s, tick_of_not_running hp⟩

/-- Settles O14: an error is a next state, taken by `conclude` or by the tick itself. -/
theorem everyStepAnswersANextState : Obligations.EveryStepAnswersANextState :=
  ⟨exec_next, fun s => tick_next _ s⟩

/-! #### The stopped block (R135) -/

/-- Settles O13, by induction on the number of ticks. -/
theorem stoppedBlockStaysStopped : Obligations.StoppedBlockStaysStopped := by
  intro s k hs
  induction k with
  | zero => rfl
  | succ k ih =>
    have hstep : Sys2Proof.core.step s = .next s := tick_of_not_running hs
    simp only [Host.Core.run, hstep, ih]

/-! #### The word that does not decode (R114) -/

theorem step_of_illegal {s : State} (hp : s.pstate = .running) (hpc : s.pc.toNat < 8192)
    (hop : 0x26 ≤ (fieldsOf s.fetchWord).op.toNat) : step s = .next (s.decodeFault s.fetchWord) :=
  tick_of_decode_error hp hpc (decode_of_illegal hop)

/-- Settles O8: the map is the bytes below 0x26, and the tick of any other word ends in the decode fault. -/
theorem decodeErrorIffOpcodeOutsideMap : Obligations.DecodeErrorIffOpcodeOutsideMap :=
  ⟨fun _ h => decode_of_illegal h, fun _ h => decode_isOk_iff.2 h,
    fun _ hp hpc hop => ⟨_, step_of_illegal hp hpc hop, rfl, rfl⟩⟩

/-! #### The ticks that execute (R130, R132) -/

/-- The tick fetches a word whose opcode byte is in the map, and so executes it. -/
def State.Executes (s : State) : Prop :=
  s.pstate = .running ∧ s.pc.toNat < 8192 ∧ (fieldsOf s.fetchWord).op.toNat < 0x26

/-- A tick executes the decoded instruction, or leaves the latches and the counter alone. -/
theorem tick_executes_or_not {abort : State → Bool} {s t : State} (h : tick abort s = .next t) :
    (s.Executes ∧ ∃ i u, exec i (s.beforeExecute s.fetchWord) = .next u ∧ t = u.countClock.sampleAbort abort s.pc) ∨
    (¬ s.Executes ∧ Part.latches.Same s t ∧ Part.clock.Same s t) := by
  rcases tick_eq_next h with ⟨hp, rfl⟩ | ⟨-, hpc, rfl⟩ | ⟨-, -, ⟨e, he⟩, rfl⟩ | ⟨hp, hpc, i, u, hd, hu, rfl⟩
  · exact .inr ⟨fun ⟨hrun, _⟩ => hp hrun, Part.Same.refl _ _, Part.Same.refl _ _⟩
  · exact .inr ⟨fun ⟨_, hin, _⟩ => hpc hin, Part.same_stop s _ _ _ (by simp), Part.same_stop s _ _ _ (by simp)⟩
  · refine .inr ⟨fun ⟨_, _, hop⟩ => ?_, ⟨rfl, rfl, rfl, rfl, rfl⟩, rfl⟩
    obtain ⟨i, hi⟩ := decode_isOk_iff.2 hop
    rw [hi] at he
    cases he
  · exact .inl ⟨⟨hp, hpc, decode_isOk_iff.1 ⟨i, hd⟩⟩, i, u, hu, rfl⟩

/-- No execute writes the latches: the decoder alone does (R120). -/
theorem exec_same_latches {i : Instr} {s t : State} (h : exec i s = .next t) : Part.latches.Same s t :=
  exec_same_of_not_mayWrite h (by simp) fun hw => by simpa using mayWrite_control hw rfl rfl

/-- No execute writes the counter: the tick alone counts (R132). -/
theorem exec_same_clock {i : Instr} {s t : State} (h : exec i s = .next t) : Part.clock.Same s t :=
  exec_same_of_not_mayWrite h (by simp) fun hw => by simpa using mayWrite_control hw rfl rfl

/-- An execute leaves the counter as the tick began it: fetch and latches do not count. -/
theorem clock_of_exec_beforeExecute {i : Instr} {s u : State} {w : ProgWord} (h : exec i (s.beforeExecute w) = .next u) :
    u.clock = s.clock := by
  have hexec : Part.clock.Same (s.beforeExecute w) u := exec_same_clock h
  exact hexec

/-- Settles O15: the tick that executes counts once, and neither the execute nor the abort writes the counter. -/
theorem clockCountsExecutedInstructions : Obligations.ClockCountsExecutedInstructions := by
  intro s t h
  rcases tick_executes_or_not h with ⟨hx, i, u, hu, rfl⟩ | ⟨hx, -, hclock⟩
  · calc (u.countClock.sampleAbort State.hostAbort s.pc).clock
        = u.clock + 1 := Part.same_sampleAbort (p := .clock) u.countClock _ s.pc (by simp)
      _ = s.clock + 1 := by rw [clock_of_exec_beforeExecute hu]
      _ = _ := (if_pos hx).symm
  · calc t.clock = s.clock := hclock
      _ = _ := (if_neg hx).symm

/-- Settles O16: what the decoder latched before the execute is still there after the abort. -/
theorem decoderWritesItsLatchesOnly : Obligations.DecoderWritesItsLatchesOnly := by
  intro s t h w f
  rcases tick_executes_or_not h with ⟨hx, i, u, hu, rfl⟩ | ⟨hx, hlatches, -⟩
  · have hhook : Part.latches.Same u.countClock (u.countClock.sampleAbort State.hostAbort s.pc) :=
      Part.same_sampleAbort u.countClock _ s.pc (by simp)
    exact ⟨fun _ => (exec_same_latches hu).trans hhook, fun hn => absurd hx hn⟩
  · exact ⟨fun hx' => absurd hx' hx, fun _ => hlatches⟩

/-- Settles O12: the executing tick, with the fetch, the latches, the counter and the abort written out. -/
theorem stepRunsTheDecodedInstruction : Obligations.StepRunsTheDecodedInstruction := by
  intro s t i hp hpc w f hd hu
  have hexec : exec i (s.beforeExecute s.fetchWord) = .next t := hu
  exact tick_of_exec hp hpc hd hexec

/-! #### The debug hook and the host abort (R133; 60_exceptions.md R382, R383) -/

/-- The hook runs in exactly the ticks that execute. -/
theorem State.debugView_isSome_iff {s : State} : s.debugView.isSome = true ↔ s.Executes := by
  rw [Option.isSome_iff_exists]
  constructor
  · rintro ⟨v, hv⟩
    obtain ⟨hf, i, u, hd, -⟩ := State.debugView_eq_some.1 hv
    obtain ⟨hp, hpc⟩ : s.pstate = .running ∧ s.pc.toNat < 8192 := by simpa [State.fetches] using hf
    exact ⟨hp, hpc, decode_isOk_iff.1 ⟨i, hd⟩⟩
  · rintro ⟨hp, hpc, hop⟩
    obtain ⟨i, hd⟩ := decode_isOk_iff.2 hop
    obtain ⟨u, hu⟩ := exec_next i (s.beforeExecute s.fetchWord)
    exact ⟨_, State.debugView_eq_some.2 ⟨by simp [State.fetches, hp, hpc], i, u, hd, hu, rfl⟩⟩

/-- An execute that leaves the block running has recorded nothing. -/
theorem exec_same_stopReport_of_running {i : Instr} {s u : State} (h : exec i s = .next u) (hu : u.pstate = .running) :
    Part.stopReport.Same s u := by
  rcases exec_eq_next h with hc | ⟨c, rfl⟩
  · refine hc.same_stopReport ?_
    rintro rfl
    obtain rfl : u = s.halt := hc
    simp at hu
  · simp at hu

/-- Before a CONTINUE is sampled, the counted state is the one the hook saw. -/
theorem State.countClock_eq_atHook {s u : State} (h : Part.stopReport.Same s u) : u.countClock = u.atHook s := by
  obtain ⟨hp, hc, hx⟩ := h
  rw [State.atHook, ← hp, ← hc, ← hx]
  rfl

section SampleAbort
variable {s : State} {abort : State → Bool} (x : Word)

theorem State.sampleAbort_of_abort (hp : s.pstate = .running) (ha : abort s = true) :
    s.sampleAbort abort x = s.stop .errored .hostAbort x := if_pos ⟨hp, ha⟩

theorem State.sampleAbort_of_not_abort (ha : abort s = false) : s.sampleAbort abort x = s :=
  if_neg fun h => by simp [ha] at h

theorem State.sampleAbort_of_not_running (hp : s.pstate ≠ .running) : s.sampleAbort abort x = s :=
  if_neg fun h => hp h.1

end SampleAbort

/-! #### The exit event (R384) -/

theorem exitEvent_eq_none_iff {s t : State} : exitEvent s t = none ↔ s.pstate ≠ .running ∨ t.pstate = .running := by
  rw [Option.eq_none_iff_forall_ne_some]
  constructor
  · intro h
    by_contra hn
    obtain ⟨hs, ht⟩ : s.pstate = .running ∧ t.pstate ≠ .running := by simpa using hn
    exact h _ (exitEvent_eq_some.2 ⟨hs, ht, rfl⟩)
  · intro h e he
    obtain ⟨hs, ht, -⟩ := exitEvent_eq_some.1 he
    exact h.elim (fun hn => hn hs) ht

theorem ExitEvent.exitCode_eq_zero_iff (e : ExitEvent) : e.exitCode = 0 ↔ e.status = .halted := by
  simp [ExitEvent.exitCode]

theorem ExitEvent.exitCode_eq_one_iff {e : ExitEvent} (h : e.status ≠ .running) : e.exitCode = 1 ↔ e.status = .errored := by
  cases hs : e.status with
  | running => exact absurd hs h
  | halted => simp [ExitEvent.exitCode, hs]
  | errored => simp [ExitEvent.exitCode, hs]

/-! #### The hook's tick and the stop's event, whole (60_exceptions.md R382 to R384) -/

/-- Around a tick that runs the hook: the view is the counted state with the report as the tick found it; a CONTINUE is
aborted or kept, a HALT or an error is recorded over the view. -/
theorem debugView_and_step {s v : State} (h : s.debugView = some v) :
    ∃ i u, decode s.fetchWord = .ok i ∧ exec i (s.beforeExecute s.fetchWord) = .next u ∧
      v = { u with clock := s.clock + 1, pstate := .running, errCause := s.errCause, exitPc := s.exitPc } ∧
      (u.pstate = .running → v.hostAbort = true → step s = .next (v.stop .errored .hostAbort s.pc)) ∧
      (u.pstate = .running → v.hostAbort = false → step s = .next v) ∧
      (u.pstate ≠ .running → step s = .next { v with pstate := u.pstate, errCause := u.errCause, exitPc := u.exitPc }) := by
  obtain ⟨hp, hpc, -⟩ := State.debugView_isSome_iff.1 (Option.isSome_of_eq_some h)
  obtain ⟨-, i, u, hd, hu, rfl⟩ := State.debugView_eq_some.1 h
  have hstep : step s = .next (u.countClock.sampleAbort State.hostAbort s.pc) := tick_of_exec hp hpc hd hu
  have hview : u.pstate = .running → u.countClock = u.atHook s := fun hr => by
    have hreport : Part.stopReport.Same (s.beforeExecute s.fetchWord) u := exec_same_stopReport_of_running hu hr
    exact State.countClock_eq_atHook hreport
  refine ⟨i, u, hd, hu, ?_, fun hr ha => ?_, fun hr ha => ?_, fun hr => ?_⟩
  · rw [State.atHook, State.countClock, clock_of_exec_beforeExecute hu, hp]
  · have hrun : (u.atHook s).pstate = .running := hp
    rw [hstep, hview hr, State.sampleAbort_of_abort _ hrun ha]
  · rw [hstep, hview hr, State.sampleAbort_of_not_abort _ ha]
  · have hstopped : u.countClock.pstate ≠ .running := hr
    rw [hstep, State.sampleAbort_of_not_running _ hstopped]
    rfl

/-- The event of a stop carries the state the tick left, and a stopped block fires no other. -/
theorem exitEvent_of_stop {s t : State} (hs : s.pstate = .running) (ht : t.pstate ≠ .running) :
    ∃ e, exitEvent s t = some e ∧
      e.status = t.pstate ∧ e.errCause = t.errCause ∧ e.exitPc = t.exitPc ∧ e.errWord = t.errWord ∧ e.isa = t.isa ∧
      e.a0 = t.a0 ∧ e.a1 = t.a1 ∧ e.a2 = t.a2 ∧ e.fa = t.fa ∧ e.clock = t.clock ∧ e.mem = t.mem ∧
      (e.exitCode = 0 ↔ e.status = .halted) ∧ (e.exitCode = 1 ↔ e.status = .errored) ∧
      ∀ u, step t = .next u → exitEvent t u = none :=
  ⟨_, exitEvent_eq_some.2 ⟨hs, ht, rfl⟩, rfl, rfl, rfl, rfl, rfl, rfl, rfl, rfl, rfl, rfl, rfl,
    ExitEvent.exitCode_eq_zero_iff _, ExitEvent.exitCode_eq_one_iff ht, fun _ _ => exitEvent_eq_none_iff.2 (.inl ht)⟩

/-- Settles O17: the hook's ticks and view, the abort there, and the exit event of each kind of stop. -/
theorem hostAbortAndHooks : Obligations.HostAbortAndHooks := by
  refine ⟨fun s => State.debugView_isSome_iff, fun s v h => debugView_and_step h,
    fun s t _ => ⟨exitEvent_eq_none_iff.2, exitEvent_of_stop⟩, fun s hp hpc => ?_, fun s hp hpc hop => ?_⟩
  · have hstop : s.haltOffEnd.pstate ≠ .running := by simp [State.haltOffEnd]
    exact ⟨_, _, tick_of_off_end hp hpc, exitEvent_eq_some.2 ⟨hp, hstop, rfl⟩, rfl, rfl, rfl, rfl, rfl⟩
  · have hstop : (s.decodeFault s.fetchWord).pstate ≠ .running := by simp [State.decodeFault]
    exact ⟨_, _, step_of_illegal hp hpc hop, exitEvent_eq_some.2 ⟨hp, hstop, rfl⟩, rfl, rfl, rfl, rfl, rfl, rfl⟩

end Sys2Proof.Machine

/-! ### Control flow: the words that decode to a given instruction, HALT, and the branches (40_control.md R150 to R156) -/

namespace Sys2Proof

/-! #### Opcode bytes and written-out words (30_encoding.md R113, R114) -/

/-- R113 for every opcode at once: any word with the opcode's byte decodes to its instruction. -/
theorem Opcode.encodedAs_byte (o : Opcode) : o.EncodedAs o.byte := by
  intro w hw
  have hop : (fieldsOf w).op = o.byte := hw
  exact decode_of_ofByte? (by rw [hop, Opcode.ofByte?_byte])

/-- A word that is an instruction's encoding decodes to it. -/
theorem decode_eq_ok_of_encode_eq {w : ProgWord} {i : Instr} (h : encode i = w) : decode w = .ok i :=
  h ▸ decodeInvertsEncode i

/-- Settles O9: the ten words are the encodings of the instructions beside them, and 0x26 is outside the map. -/
theorem specExampleWordsDecode : Obligations.SpecExampleWordsDecode := by
  refine ⟨?jmp, ?niter, ?add, ?cmp, ?movc, ?ld, ?fpush, ?vadd, ?vset, ?parallel, ?illegal⟩
  case illegal => exact decode_of_illegal (by decide)
  all_goals exact decode_eq_ok_of_encode_eq (by decide)

end Sys2Proof

namespace Sys2Proof.Machine

/-! #### HALT (R151) -/

theorem exec_halt (s : State) : exec .halt s = .next s.halt := rfl

/-- The tick of a HALT word: the execute has stopped the block, so no abort is taken, and the tick still counts. -/
theorem tick_of_halt {abort : State → Bool} {s : State} (hp : s.pstate = .running) (hpc : s.pc.toNat < 8192)
    (hd : decode s.fetchWord = .ok .halt) :
    tick abort s = .next (s.beforeExecute s.fetchWord).halt.countClock := by
  have hstopped : (s.beforeExecute s.fetchWord).halt.countClock.pstate ≠ .running := by simp
  rw [tick_of_exec hp hpc hd (exec_halt _), State.sampleAbort_of_not_running _ hstopped]

/-- Settles O26: EXIT_PC is one below the PC that the fetch has advanced. -/
theorem haltFollowsItsRule : Obligations.HaltFollowsItsRule := by
  refine ⟨Opcode.halt.encodedAs_byte, exec_halt, fun s hp hpc hbyte => ?_⟩
  have hd : decode s.fetchWord = .ok .halt := Opcode.halt.encodedAs_byte s.fetchWord hbyte
  have hexit : s.pc + 1 - 1 = s.pc := BitVec.add_sub_cancel s.pc 1
  exact ⟨_, tick_of_halt hp hpc hd, rfl, rfl, hexit, rfl, rfl⟩

/-! #### Branches (R150, R152 to R156) -/

section Branch
variable {s : State} {a : Word} {taken : Bool}

/-- A branch to a legal target, taken exactly under `c`, writes PC under `c` and nothing else. -/
theorem conclude_branch_of_lt {c : Prop} [Decidable c] (ha : a.toNat < 8192) (hc : taken = true ↔ c) :
    conclude s (s.branch a taken) = .next { s with pc := if c then a else s.pc } := by
  rw [State.branch_of_lt ha, conclude_ok]
  by_cases h : c
  · rw [if_pos (hc.2 h), if_pos h, State.setPc]
  · rw [if_neg (mt hc.1 h), if_neg h]

/-- A branch to any other target is ERROR(BRANCH_TARGET), taken or not (R150). -/
theorem conclude_branch_of_not_lt (ha : ¬ a.toNat < 8192) :
    conclude s (s.branch a taken) = .next (s.inError 2) := by
  rw [State.branch_of_not_lt ha, conclude_error]
  rfl

end Branch

/-- Settles O27: each branch concludes the shared branch operation, taken exactly under its rule's condition. -/
theorem branchesFollowTheirRules : Obligations.BranchesFollowTheirRules := by
  refine ⟨Opcode.jmp.encodedAs_byte, Opcode.bz.encodedAs_byte, Opcode.bnz.encodedAs_byte, Opcode.blt.encodedAs_byte,
    Opcode.bge.encodedAs_byte, fun s a => ⟨fun ha => ⟨?jmp, ?bz, ?bnz, ?blt, ?bge⟩, fun ha => ?illegal⟩⟩
  case jmp => exact (conclude_branch_of_lt ha (iff_true_intro rfl)).trans (by rw [if_pos trivial])
  case bz => exact conclude_branch_of_lt ha Iff.rfl
  case bnz => exact conclude_branch_of_lt ha (iff_of_eq (Bool.not_eq_true' s.flagZ))
  case blt => exact conclude_branch_of_lt ha Iff.rfl
  case bge => exact conclude_branch_of_lt ha Bool.or_eq_true_iff
  case illegal =>
    have herr : ∀ taken, conclude s (s.branch a taken) = .next (s.inError 2) := fun _ => conclude_branch_of_not_lt ha
    exact ⟨herr _, herr _, herr _, herr _, herr _⟩

end Sys2Proof.Machine

/-! ### Graph iteration: each instruction's rule (41_graph.md R180 to R192) -/

namespace Sys2Proof.Machine

/-! #### The query engine's reads (R181, R182) -/

theorem csrEntry_of_some {array : List Word} {i : Nat} {v : Word} (h : array[i]? = some v) :
    csrEntry array i = .ok v := csrEntry_eq_ok.2 ⟨by omega, by simpa using h⟩

theorem csrEntry_of_nonneg {array : List Word} {i : Int} {v : Word} (hi : 0 ≤ i) (h : array[i.toNat]? = some v) :
    csrEntry array i = .ok v := csrEntry_eq_ok.2 ⟨hi, h⟩

/-- An entry that the array does not have is CSR_BOUNDS. -/
theorem csrEntry_of_missing {array : List Word} {i : Int} (h : i < 0 ∨ array[i.toNat]? = none) :
    csrEntry array i = .error .csrBounds := by
  cases he : csrEntry array i with
  | ok v =>
    obtain ⟨hi, hv⟩ := csrEntry_eq_ok.1 he
    rcases h with h | h
    · omega
    · simp [hv] at h
  | error c => rw [(csrEntry_eq_error he).1]

section TwoReads
variable {β : Type} {a b : List Word} {i j : Int} (f : Word → Word → Except Cause β)

theorem csrEntry_bind_of_nonneg {x y : Word} (hi : 0 ≤ i) (hx : a[i.toNat]? = some x) (hj : 0 ≤ j)
    (hy : b[j.toNat]? = some y) : (csrEntry a i >>= fun x => csrEntry b j >>= fun y => f x y) = f x y := by
  rw [csrEntry_of_nonneg hi hx, ok_bind, csrEntry_of_nonneg hj hy, ok_bind]

/-- Two reads in a row, one of which is outside its array. -/
theorem csrEntry_bind_of_missing (h : (i < 0 ∨ a[i.toNat]? = none) ∨ (j < 0 ∨ b[j.toNat]? = none)) :
    (csrEntry a i >>= fun x => csrEntry b j >>= fun y => f x y) = .error .csrBounds := by
  cases ha : csrEntry a i with
  | error c => rw [error_bind, (csrEntry_eq_error ha).1]
  | ok x =>
    rcases h with h | h
    · rw [csrEntry_of_missing h] at ha
      cases ha
    · rw [ok_bind, csrEntry_of_missing h, error_bind]

end TwoReads

theorem Csr.needNode_of_lt {g : Csr} {x : Word} {u : Nat} (hx : x.toInt = u) (hu : u < g.n.toNat) :
    g.needNode x = .ok u := Csr.needNode_eq_ok.2 ⟨hx, hu⟩

theorem Csr.needNode_of_outside {g : Csr} {x : Word} (h : ¬ (0 ≤ x.toInt ∧ x.toInt < g.n.toNat)) :
    g.needNode x = .error .nodeRange := Csr.needNode_eq_error.2 ⟨h, rfl⟩

section Row
variable {β : Type} {g : Csr} {u : Nat} {lo hi : Word} (f : Word → Word → Except Cause β)

/-- The two entries of a row that row_index has. -/
theorem Csr.row_bind_of_some (hlo : g.rowIndex[u]? = some lo) (hhi : g.rowIndex[u + 1]? = some hi) :
    (g.row u >>= fun x => g.row (u + 1 : Nat) >>= fun y => f x y) = f lo hi := by
  simp only [Csr.row, csrEntry_of_some hlo, csrEntry_of_some hhi, ok_bind]

/-- A row that lacks one of its two entries in row_index. -/
theorem Csr.row_bind_of_none (h : g.rowIndex[u]? = none ∨ g.rowIndex[u + 1]? = none) :
    (g.row u >>= fun x => g.row (u + 1 : Nat) >>= fun y => f x y) = .error .csrBounds :=
  csrEntry_bind_of_missing f (h.imp .inr .inr)

end Row

/-! #### NITER and EITER (R187, R189) -/

/-- Settles O29: the iterator field's check, then the write of one cursor. -/
theorem niterFollowsItsRule : Obligations.NiterFollowsItsRule := by
  refine ⟨Opcode.niter.encodedAs_byte, fun s i => ⟨fun h => ?_, fun h => ?_⟩⟩
  · show execNiter i s = _
    rw [execNiter, iterIndex_of_lt h]
    rfl
  · show execNiter i s = _
    rw [execNiter, iterIndex_of_not_lt h]
    rfl

/-- Settles O31: EITER checks nothing. -/
theorem eiterFollowsItsRule : Obligations.EiterFollowsItsRule := ⟨Opcode.eiter.encodedAs_byte, fun _ => rfl⟩

/-! #### NNEXT (R188) -/

section Nnext
variable {s : State} {i : Byte}

theorem exec_nnext_of_bad_iterator (h : ¬ i.toNat < 4) : exec (.nnext i) s = .next (s.raise .iterIndex) := by
  show execNnext i s = _
  rw [execNnext, iterIndex_of_not_lt h, error_bind, conclude_error]

variable (h : i.toNat < 4)
include h

theorem exec_nnext_of_bad_node (hn : ¬ (0 ≤ (s.readR rnode).toInt ∧ (s.readR rnode).toInt < s.graph.n.toNat)) :
    exec (.nnext i) s = .next (s.raise .nodeRange) := by
  show execNnext i s = _
  rw [execNnext, iterIndex_of_lt h, ok_bind, Csr.needNode_of_outside hn, error_bind, conclude_error]

variable {u : Nat} (hu : (s.readR rnode).toInt = u) (hn : u < s.graph.n.toNat)
include hu hn

theorem exec_nnext_of_missing_row (hrow : s.graph.rowIndex[u]? = none ∨ s.graph.rowIndex[u + 1]? = none) :
    exec (.nnext i) s = .next (s.raise .csrBounds) := by
  show execNnext i s = _
  rw [execNnext, iterIndex_of_lt h, ok_bind, Csr.needNode_of_lt hu hn, ok_bind, Csr.row_bind_of_none _ hrow,
    conclude_error]

variable {lo hi : Word} (hlo : s.graph.rowIndex[u]? = some lo) (hhi : s.graph.rowIndex[u + 1]? = some hi)
include hlo hhi

/-- Past every check but the slot's: the rest of NNEXT in a row whose two entries are there. -/
theorem exec_nnext_of_row : exec (.nnext i) s = conclude s
    (if lo.toInt + s.niter[i.toNat].toNat < hi.toInt then
      csrEntry s.graph.colIndex (lo.toInt + s.niter[i.toNat].toNat) >>= fun nb =>
        csrEntry s.graph.values (lo.toInt + s.niter[i.toNat].toNat) >>= fun w =>
          .ok ((((s.writeR rnbr nb).writeR rval w).writeNiter ⟨i.toNat, h⟩ (s.niter[i.toNat] + 1)).setZ false)
    else .ok (s.setZ true)) := by
  show execNnext i s = _
  rw [execNnext, iterIndex_of_lt h, ok_bind, Csr.needNode_of_lt hu hn, ok_bind, Csr.row_bind_of_some _ hlo hhi]
  rfl

theorem exec_nnext_of_row_end (hend : hi.toInt ≤ lo.toInt + s.niter[i.toNat].toNat) :
    exec (.nnext i) s = .next (s.setZ true) := by
  rw [exec_nnext_of_row h hu hn hlo hhi, if_neg (not_lt.2 hend), conclude_ok]

variable {slot : Int} (hslot : slot = lo.toInt + s.niter[i.toNat].toNat) (hin : slot < hi.toInt)
include hslot hin

theorem exec_nnext_of_missing_slot
    (hbad : slot < 0 ∨ s.graph.colIndex[slot.toNat]? = none ∨ s.graph.values[slot.toNat]? = none) :
    exec (.nnext i) s = .next (s.raise .csrBounds) := by
  rw [exec_nnext_of_row h hu hn hlo hhi, ← hslot, if_pos hin, csrEntry_bind_of_missing _ (by tauto), conclude_error]

theorem exec_nnext_of_edge (h0 : 0 ≤ slot) {nb w : Word} (hnb : s.graph.colIndex[slot.toNat]? = some nb)
    (hw : s.graph.values[slot.toNat]? = some w) :
    exec (.nnext i) s =
      .next ((((s.writeR rnbr nb).writeR rval w).writeNiter ⟨i.toNat, h⟩ (s.niter[i.toNat] + 1)).setZ false) := by
  rw [exec_nnext_of_row h hu hn hlo hhi, ← hslot, if_pos hin, csrEntry_bind_of_nonneg _ h0 hnb h0 hw, conclude_ok]

end Nnext

/-- Settles O30: the checks in the order the rule writes them, then the slot against the end of the row. -/
theorem nnextFollowsItsRule : Obligations.NnextFollowsItsRule := by
  refine ⟨Opcode.nnext.encodedAs_byte, fun s i => ⟨exec_nnext_of_bad_iterator, fun h =>
    ⟨exec_nnext_of_bad_node h, fun u hu hn => ⟨exec_nnext_of_missing_row h hu hn, fun lo hi hlo hhi => ?_⟩⟩⟩⟩
  exact ⟨exec_nnext_of_row_end h hu hn hlo hhi, exec_nnext_of_missing_slot h hu hn hlo hhi rfl,
    fun nb w hin h0 hnb hw => exec_nnext_of_edge h hu hn hlo hhi rfl hin h0 hnb hw⟩

/-! #### HASE (R184, R191) -/

/-- A slice of a list holds what the list holds at the slice's indices. -/
theorem mem_take_drop_iff {α : Type} {l : List α} {a k : Nat} {x : α} :
    x ∈ (l.drop a).take k ↔ ∃ j, a ≤ j ∧ j < a + k ∧ l[j]? = some x := by
  rw [List.mem_iff_getElem?]
  constructor
  · rintro ⟨i, hi⟩
    rw [List.getElem?_take, Option.ite_none_right_eq_some, List.getElem?_drop] at hi
    obtain ⟨hik, hi⟩ := hi
    exact ⟨a + i, by omega, by omega, hi⟩
  · rintro ⟨j, haj, hjk, hj⟩
    refine ⟨j - a, ?_⟩
    rw [List.getElem?_take_of_lt (by omega), List.getElem?_drop, Nat.add_sub_cancel' haj, hj]

section Row
variable {g : Csr} {u : Nat} {lo hi : Word}

theorem Csr.hasEdge_of_missing_row (v : Word) (hrow : g.rowIndex[u]? = none ∨ g.rowIndex[u + 1]? = none) :
    g.hasEdge u v = .error .csrBounds := by
  rw [Csr.hasEdge, Csr.neighbors, Csr.row_bind_of_none _ hrow, error_bind]

variable (hlo : g.rowIndex[u]? = some lo) (hhi : g.rowIndex[u + 1]? = some hi)
include hlo hhi

theorem Csr.degree_of_row : g.degree u = .ok (hi - lo) := by
  have hsub : BitVec.ofInt 32 (hi.toInt - lo.toInt) = hi - lo :=
    BitVec.eq_of_toInt_eq (by rw [BitVec.toInt_ofInt, BitVec.toInt_sub])
  rw [Csr.degree, Csr.row_bind_of_some _ hlo hhi, hsub]

theorem Csr.neighbors_of_row_outside (hlt : lo.toInt < hi.toInt)
    (hbad : lo.toInt < 0 ∨ (g.colIndex.length : Int) < hi.toInt) :
    g.neighbors u = .error .csrBounds := by
  rw [Csr.neighbors, Csr.row_bind_of_some _ hlo hhi, if_pos hlt, if_neg (by omega)]

/-- The neighbours of a row inside col_index are the columns at its slots. -/
theorem Csr.neighbors_of_row_inside (hin : lo.toInt < hi.toInt → 0 ≤ lo.toInt ∧ hi.toInt ≤ g.colIndex.length) :
    ∃ row, g.neighbors u = .ok row ∧
      ∀ v, v ∈ row ↔ ∃ j : Nat, lo.toInt ≤ j ∧ j < hi.toInt ∧ g.colIndex[j]? = some v := by
  rw [Csr.neighbors, Csr.row_bind_of_some _ hlo hhi]
  by_cases hlt : lo.toInt < hi.toInt
  · rw [if_pos hlt, if_pos (hin hlt)]
    refine ⟨_, rfl, fun v => ?_⟩
    have hslot (j : Nat) : lo.toInt.toNat ≤ j ∧ j < lo.toInt.toNat + (hi.toInt - lo.toInt).toNat ↔
        lo.toInt ≤ j ∧ j < hi.toInt := by have := hin hlt; omega
    simp only [mem_take_drop_iff, ← and_assoc, hslot]
  · rw [if_neg hlt]
    refine ⟨[], rfl, fun v => iff_of_false List.not_mem_nil ?_⟩
    rintro ⟨j, hj, hj', -⟩
    omega

end Row

section Hase
variable {s : State}

theorem exec_hase_of_bad_node (hn : ¬ (0 ≤ (s.readR rnode).toInt ∧ (s.readR rnode).toInt < s.graph.n.toNat)) :
    exec .hase s = .next (s.raise .nodeRange) := by
  show execHase s = _
  rw [execHase, Csr.needNode_of_outside hn, error_bind, conclude_error]

/-- At a node of the graph HASE concludes with the answer of has_edge. -/
theorem exec_hase_of_node {u : Nat} (hu : (s.readR rnode).toInt = u) (hn : u < s.graph.n.toNat) :
    exec .hase s = conclude s (s.graph.hasEdge u (s.readR rnbr) >>= fun hit => .ok (s.setZ (!hit))) := by
  show execHase s = _
  rw [execHase, Csr.needNode_of_lt hu hn, ok_bind]

end Hase

/-- Settles O34: the node's check, the row's checks, then membership in the row's columns. -/
theorem haseFollowsItsRule : Obligations.HaseFollowsItsRule := by
  refine ⟨Opcode.hase.encodedAs_byte, fun s => ⟨exec_hase_of_bad_node, fun u hu hn => ?_⟩⟩
  rw [exec_hase_of_node hu hn]
  refine ⟨fun hrow => ?missing, fun lo hi hlo hhi => ⟨fun hlt hbad => ?outside, fun hin => ?inside⟩⟩
  case missing => rw [Csr.hasEdge_of_missing_row _ hrow]; rfl
  case outside => rw [Csr.hasEdge, Csr.neighbors_of_row_outside hlo hhi hlt hbad]; rfl
  case inside =>
    obtain ⟨row, hrow, hmem⟩ := Csr.neighbors_of_row_inside hlo hhi hin
    rw [Csr.hasEdge, hrow, ok_bind, ok_bind, conclude_ok]
    refine ⟨fun hit => ?_, fun miss => ?_⟩
    · rw [List.contains_iff_mem.2 ((hmem _).2 hit)]; rfl
    · rw [Bool.eq_false_iff.2 fun hc => miss ((hmem _).1 (List.contains_iff_mem.1 hc))]; rfl

/-! #### DEG (R183, R192) -/

/-- DEG with a register field that names a register concludes with the degree of the node that register reads. -/
theorem exec_deg_of_lt (s : State) {r : Byte} (h : r.toNat < 24) :
    exec (.deg r) s = conclude s (s.graph.needNode (s.readR ⟨r.toNat, h⟩) >>= fun u =>
      s.graph.degree u >>= fun deg => .ok (s.writeR rval deg)) := by
  show execDeg r s = _
  rw [execDeg, scalarIndex_of_lt (b := .int) h, ok_bind]

/-- Settles O35: the register field's check, the node's check, then the write of the degree. -/
theorem degFollowsItsRule : Obligations.DegFollowsItsRule := by
  refine ⟨Opcode.deg.encodedAs_byte, fun s r => ⟨fun hr => ?reg, fun h => ?_⟩⟩
  case reg => exact exec_of_illFormed s (by simpa [Instr.wellFormed, scalarOk] using hr)
  rw [exec_deg_of_lt s h]
  refine ⟨fun hbad => ?_, fun u lo hi hu hn hlo hhi => ?_⟩
  · rw [Csr.needNode_of_outside hbad]; rfl
  · rw [Csr.needNode_of_lt hu hn, ok_bind, Csr.degree_of_row hlo hhi]; rfl

/-! #### ENEXT (R190) -/

/-- The walk's offset into row `k` when it stands at offset `e` of row `u`: a later row is entered at its first slot. -/
def rowOffset (u e k : Nat) : Nat := if k = u then e else 0

@[simp] theorem rowOffset_self (u e : Nat) : rowOffset u e u = e := if_pos rfl

theorem rowOffset_of_ne {u e k : Nat} (h : k ≠ u) : rowOffset u e k = 0 := if_neg h

/-- Row `k` has no edge left at offset `e`. -/
def Csr.Exhausted (g : Csr) (k e : Nat) : Prop :=
  ∃ lo hi, g.rowIndex[k]? = some lo ∧ g.rowIndex[k + 1]? = some hi ∧ hi.toInt ≤ lo.toInt + e

section Seek
variable {g : Csr} {u e v : Nat}

theorem Csr.seekEdge_of_past_end {fuel : Nat} (h : g.n.toNat ≤ u) : g.seekEdge fuel u e = .ok (u, e) := by
  cases fuel with
  | zero => rfl
  | succ fuel => exact if_neg (not_lt.2 h)

/-- One turn of the loop, at a row of the graph. -/
theorem Csr.seekEdge_of_lt (h : u < g.n.toNat) :
    g.seekEdge (g.n.toNat - u) u e = g.row u >>= fun lo => g.row (u + 1 : Nat) >>= fun hi =>
      if lo.toInt + e ≥ hi.toInt then g.seekEdge (g.n.toNat - (u + 1)) (u + 1) 0 else .ok (u, e) := by
  rw [show g.n.toNat - u = g.n.toNat - (u + 1) + 1 by omega]
  exact if_pos h

theorem Csr.seekEdge_of_exhausted (h : u < g.n.toNat) (hx : g.Exhausted u e) :
    g.seekEdge (g.n.toNat - u) u e = g.seekEdge (g.n.toNat - (u + 1)) (u + 1) 0 := by
  obtain ⟨lo, hi, hlo, hhi, hle⟩ := hx
  rw [Csr.seekEdge_of_lt h, Csr.row_bind_of_some _ hlo hhi, if_pos hle]

theorem Csr.seekEdge_of_missing_row (h : u < g.n.toNat) (hrow : g.rowIndex[u]? = none ∨ g.rowIndex[u + 1]? = none) :
    g.seekEdge (g.n.toNat - u) u e = .error .csrBounds := by
  rw [Csr.seekEdge_of_lt h, Csr.row_bind_of_none _ hrow]

theorem Csr.seekEdge_of_populated (h : u < g.n.toNat) {lo hi : Word} (hlo : g.rowIndex[u]? = some lo)
    (hhi : g.rowIndex[u + 1]? = some hi) (hlt : lo.toInt + e < hi.toInt) :
    g.seekEdge (g.n.toNat - u) u e = .ok (u, e) := by
  rw [Csr.seekEdge_of_lt h, Csr.row_bind_of_some _ hlo hhi, if_neg (by omega)]

/-- The loop passes the exhausted rows before `v`. -/
theorem Csr.seekEdge_skip (huv : u ≤ v) (hv : v ≤ g.n.toNat)
    (hx : ∀ k, u ≤ k → k < v → g.Exhausted k (rowOffset u e k)) :
    g.seekEdge (g.n.toNat - u) u e = g.seekEdge (g.n.toNat - v) v (rowOffset u e v) := by
  induction v, huv using Nat.le_induction with
  | base => rw [rowOffset_self]
  | succ v huv ih =>
    rw [ih (by omega) fun k hk hkv => hx k hk (by omega), Csr.seekEdge_of_exhausted hv (hx v huv (by omega)),
      rowOffset_of_ne (by omega)]

end Seek

@[simp] theorem State.readR_setZ (s : State) (z : Bool) (k : Fin 24) : (s.setZ z).readR k = s.readR k := rfl
@[simp] theorem State.readR_writeEiter (s : State) (x : Word) (k : Fin 24) : (s.writeEiter x).readR k = s.readR k := rfl

/-- ENEXT's writes when it loads an edge at offset `e` of row `v`. -/
def State.loadEdge (s : State) (v e : Nat) (nb w : Word) : State :=
  ((((s.writeR rnode (BitVec.ofNat 32 v)).writeR rnbr nb).writeR rval w).writeEiter (BitVec.ofNat 32 (e + 1))).setZ false

section LoadEdge
variable (s : State) (v e : Nat) (nb w : Word)

@[simp] theorem State.loadEdge_graph : (s.loadEdge v e nb w).graph = s.graph := rfl

@[simp] theorem State.loadEdge_eiter : (s.loadEdge v e nb w).eiter = BitVec.ofNat 32 (e + 1) := rfl

@[simp] theorem State.loadEdge_flagZ : (s.loadEdge v e nb w).flagZ = false := State.flagZ_setZ _ _

@[simp] theorem State.loadEdge_rnode : (s.loadEdge v e nb w).readR rnode = BitVec.ofNat 32 v := by
  rw [State.loadEdge, State.readR_setZ, State.readR_writeEiter, State.readR_writeR_other _ _ _ _ (by decide),
    State.readR_writeR_other _ _ _ _ (by decide), State.readR_writeR_same, if_neg (by decide)]

@[simp] theorem State.loadEdge_rnbr : (s.loadEdge v e nb w).readR rnbr = nb := by
  rw [State.loadEdge, State.readR_setZ, State.readR_writeEiter, State.readR_writeR_other _ _ _ _ (by decide),
    State.readR_writeR_same, if_neg (by decide)]

@[simp] theorem State.loadEdge_rval : (s.loadEdge v e nb w).readR rval = w := by
  rw [State.loadEdge, State.readR_setZ, State.readR_writeEiter, State.readR_writeR_same, if_neg (by decide)]

end LoadEdge

section Enext
variable {s : State}

theorem exec_enext_of_negative (h : (s.readR rnode).toInt < 0) : exec .enext s = .next (s.raise .nodeRange) := by
  show execEnext s = _
  rw [execEnext, if_pos h, conclude_error]

variable {u : Nat} (hu : (s.readR rnode).toInt = u)
include hu

/-- At a node that is not negative ENEXT seeks the next edge and then ends the walk or loads the edge's slot. -/
theorem exec_enext_of_node : exec .enext s = conclude s
    (s.graph.seekEdge (s.graph.n.toNat - u) u s.eiter.toNat >>= fun p =>
      if p.1 ≥ s.graph.n.toNat then
        .ok (((s.writeR rnode (BitVec.ofNat 32 p.1)).writeEiter (BitVec.ofNat 32 p.2)).setZ true)
      else s.graph.row p.1 >>= fun lo =>
        csrEntry s.graph.colIndex (lo.toInt + p.2) >>= fun nb => csrEntry s.graph.values (lo.toInt + p.2) >>= fun w =>
          .ok (s.loadEdge p.1 p.2 nb w)) := by
  show execEnext s = _
  rw [execEnext, if_neg (by omega), hu, Int.toNat_natCast]
  rfl

theorem exec_enext_of_past_end (hn : s.graph.n.toNat ≤ u) : exec .enext s = .next (s.setZ true) := by
  have hnode : BitVec.ofNat 32 u = s.r[0] := by
    rw [← BitVec.ofInt_natCast, ← hu, BitVec.ofInt_toInt]
    rfl
  rw [exec_enext_of_node hu, Csr.seekEdge_of_past_end hn, ok_bind, if_pos hn, conclude_ok, hnode]
  simp [State.writeR, State.writeEiter]

theorem exec_enext_of_all_exhausted (hn : u < s.graph.n.toNat)
    (hx : ∀ k, u ≤ k → k < s.graph.n.toNat → s.graph.Exhausted k (rowOffset u s.eiter.toNat k)) :
    exec .enext s = .next (((s.writeR rnode s.graph.n).writeEiter 0).setZ true) := by
  rw [exec_enext_of_node hu, Csr.seekEdge_skip hn.le le_rfl hx, Csr.seekEdge_of_past_end le_rfl, ok_bind,
    if_pos le_rfl, conclude_ok, rowOffset_of_ne (by omega), BitVec.ofNat_toNat, BitVec.setWidth_eq]
  rfl

variable {v : Nat} (huv : u ≤ v) (hv : v < s.graph.n.toNat)
  (hx : ∀ k, u ≤ k → k < v → s.graph.Exhausted k (rowOffset u s.eiter.toNat k))
include huv hv hx

theorem exec_enext_of_missing_row (hrow : s.graph.rowIndex[v]? = none ∨ s.graph.rowIndex[v + 1]? = none) :
    exec .enext s = .next (s.raise .csrBounds) := by
  rw [exec_enext_of_node hu, Csr.seekEdge_skip huv hv.le hx, Csr.seekEdge_of_missing_row hv hrow, error_bind,
    conclude_error]

variable {lo hi : Word} (hlo : s.graph.rowIndex[v]? = some lo) (hhi : s.graph.rowIndex[v + 1]? = some hi)
  {slot : Int} (hslot : slot = lo.toInt + rowOffset u s.eiter.toNat v) (hin : slot < hi.toInt)
include hlo hhi hslot hin

/-- The next populated row is `v`: what is left is the slot. -/
theorem exec_enext_of_populated_row : exec .enext s = conclude s
    (csrEntry s.graph.colIndex slot >>= fun nb => csrEntry s.graph.values slot >>= fun w =>
      .ok (s.loadEdge v (rowOffset u s.eiter.toNat v) nb w)) := by
  subst hslot
  rw [exec_enext_of_node hu, Csr.seekEdge_skip huv hv.le hx, Csr.seekEdge_of_populated hv hlo hhi hin, ok_bind,
    if_neg (not_le.2 hv), Csr.row, csrEntry_of_some hlo, ok_bind]

theorem exec_enext_of_missing_slot
    (hbad : slot < 0 ∨ s.graph.colIndex[slot.toNat]? = none ∨ s.graph.values[slot.toNat]? = none) :
    exec .enext s = .next (s.raise .csrBounds) := by
  rw [exec_enext_of_populated_row hu huv hv hx hlo hhi hslot hin, csrEntry_bind_of_missing _ (by tauto),
    conclude_error]

theorem exec_enext_of_edge (h0 : 0 ≤ slot) {nb w : Word} (hnb : s.graph.colIndex[slot.toNat]? = some nb)
    (hw : s.graph.values[slot.toNat]? = some w) :
    exec .enext s = .next (s.loadEdge v (rowOffset u s.eiter.toNat v) nb w) := by
  rw [exec_enext_of_populated_row hu huv hv hx hlo hhi hslot hin, csrEntry_bind_of_nonneg _ h0 hnb h0 hw, conclude_ok]

end Enext

/-- Settles O32: the loop passes the exhausted rows and stops at the first other row or at the end. -/
theorem enextFollowsItsRule : Obligations.EnextFollowsItsRule := by
  refine ⟨Opcode.enext.encodedAs_byte, fun s => ⟨exec_enext_of_negative, fun u hu =>
    ⟨exec_enext_of_past_end hu, exec_enext_of_all_exhausted hu, fun v huv hv hx =>
      ⟨exec_enext_of_missing_row hu huv hv hx, fun lo hi hlo hhi hin => ?_⟩⟩⟩⟩
  exact ⟨exec_enext_of_missing_slot hu huv hv hx hlo hhi rfl hin,
    fun nb w h0 hnb hw => exec_enext_of_edge hu huv hv hx hlo hhi rfl hin h0 hnb hw⟩

end Sys2Proof.Machine

/-! ### The launch premise: no CSR_BOUNDS on a well-formed graph, and the edge walk (20_memory.md R98) -/

namespace Sys2Proof.Machine

/-! #### Rows of a well-formed graph -/

/-- row_index[u] as an integer: the slot where row `u` begins and row `u - 1` ends. -/
def Csr.rowStart (g : Csr) (u : Nat) : Int := (g.rowIndex.getD u 0).toInt

theorem Csr.rowStart_eq {g : Csr} {u : Nat} {v : Word} (h : g.rowIndex[u]? = some v) : g.rowStart u = v.toInt := by
  rw [Csr.rowStart, List.getD_eq_getElem?_getD, h, Option.getD_some]

section Premise
variable {g : Csr} (hg : g.Premise) {u v : Nat}
include hg

theorem Csr.Premise.exists_rowIndex (hu : u ≤ g.n.toNat) : ∃ w, g.rowIndex[u]? = some w :=
  ⟨_, List.getElem?_eq_getElem (by have := hg.rowLen; omega)⟩

theorem Csr.Premise.rowStart_zero : g.rowStart 0 = 0 := by
  obtain ⟨w, hw⟩ := hg.exists_rowIndex (Nat.zero_le _)
  rw [Csr.rowStart_eq hw, hg.first w hw]

theorem Csr.Premise.rowStart_last : g.rowStart g.n.toNat = g.colIndex.length := by
  obtain ⟨w, hw⟩ := hg.exists_rowIndex le_rfl
  rw [Csr.rowStart_eq hw, hg.last w hw]

theorem Csr.Premise.rowStart_mono (huv : u ≤ v) (hv : v ≤ g.n.toNat) : g.rowStart u ≤ g.rowStart v := by
  rcases huv.eq_or_lt with rfl | hlt
  · exact le_rfl
  · obtain ⟨x, hx⟩ := hg.exists_rowIndex (huv.trans hv)
    obtain ⟨y, hy⟩ := hg.exists_rowIndex hv
    obtain ⟨hu, hx'⟩ := List.getElem?_eq_some_iff.1 hx
    obtain ⟨hv, hy'⟩ := List.getElem?_eq_some_iff.1 hy
    rw [Csr.rowStart_eq hx, Csr.rowStart_eq hy, ← hx', ← hy']
    exact List.pairwise_iff_getElem.1 hg.rising u v hu hv hlt

theorem Csr.Premise.rowStart_nonneg (hu : u ≤ g.n.toNat) : 0 ≤ g.rowStart u :=
  hg.rowStart_zero ▸ hg.rowStart_mono (Nat.zero_le u) hu

theorem Csr.Premise.rowStart_le (hu : u ≤ g.n.toNat) : g.rowStart u ≤ g.colIndex.length :=
  hg.rowStart_last ▸ hg.rowStart_mono hu le_rfl

end Premise

/-! #### Computations that do not end in CSR_BOUNDS -/

section InBounds
variable {α β : Type} {P : α → Prop} {Q : β → Prop}

/-- A computation that ends in a value with `P` or in an error other than CSR_BOUNDS. -/
structure InBounds (P : α → Prop) (x : Except Cause α) : Prop where
  value : ∀ a, x = .ok a → P a
  noBounds : x ≠ .error .csrBounds

theorem InBounds.ok {a : α} (h : P a) : InBounds P (.ok a) := ⟨fun _ ha => Except.ok.inj ha ▸ h, by simp⟩

theorem InBounds.error {c : Cause} (h : c ≠ .csrBounds) : InBounds P (.error c) := ⟨by simp, by simpa using h⟩

theorem InBounds.bind {x : Except Cause α} {f : α → Except Cause β} (hx : InBounds P x)
    (hf : ∀ a, P a → InBounds Q (f a)) : InBounds Q (x >>= f) := by
  cases x with
  | ok a => exact hf a (hx.value a rfl)
  | error c => exact .error fun hc => hx.noBounds (hc ▸ rfl)

/-- The bound on errors alone. -/
theorem InBounds.of_error {x : Except Cause α} (h : ∀ c, x = .error c → c ≠ .csrBounds) :
    InBounds (fun _ => True) x :=
  ⟨fun _ _ => trivial, fun hx => h _ hx rfl⟩

theorem FieldTest.inBounds {wf : Bool} {c : Cause} {x : Except Cause α} (h : FieldTest wf c x) (hc : c ≠ .csrBounds) :
    InBounds (fun _ => True) x := by
  rcases h with ⟨-, a, rfl⟩ | ⟨-, rfl⟩
  · exact .ok trivial
  · exact .error hc

end InBounds

/-! #### The operand forms and the frontiers -/

theorem scalarIndex_inBounds (b : Bank) (d : Byte) : InBounds (fun _ => True) (scalarIndex b d.toNat) :=
  (scalarIndex_fieldTest b d).inBounds (by simp)

theorem vectorIndex_inBounds (n : Nat) : InBounds (fun _ => True) (vectorIndex n) :=
  (vectorIndex_fieldTest n).inBounds (by simp)

theorem iterIndex_inBounds (i : Byte) : InBounds (fun _ => True) (iterIndex i) :=
  (iterIndex_fieldTest i).inBounds (by simp)

section Operands
variable (s : State) (b : Bank)

theorem State.src2_inBounds (x : Src2) : InBounds (fun _ => True) (s.src2 b x) :=
  (s.src2_fieldTest b x).inBounds (by simp)

theorem State.src1_inBounds (x : Src1) : InBounds (fun _ => True) (s.src1 b x) :=
  (s.src1_fieldTest b x).inBounds (by simp)

theorem State.effAddr_inBounds (len : Nat) (x : Src1) : InBounds (fun _ => True) (s.effAddr len x) :=
  .of_error fun c hc => by rcases State.effAddr_eq_error hc with ⟨-, rfl⟩ | rfl <;> simp

theorem State.branch_inBounds (a : Word) (taken : Bool) :
    InBounds (fun t => t.errCause = s.errCause) (s.branch a taken) := by
  by_cases h : a.toNat < 8192
  · rw [State.branch_of_lt h]
    exact .ok (by cases taken <;> rfl)
  · rw [State.branch_of_not_lt h]
    exact .error (by simp)

theorem State.arith_inBounds (d s1 : Byte) (s2 : Src2) {op : Word → Word → Except Cause Word}
    (hop : ∀ x y, InBounds (fun _ => True) (op x y)) :
    InBounds (fun t => t.errCause = s.errCause) (s.arith b d s1 s2 op) :=
  (scalarIndex_inBounds b d).bind fun k _ => (scalarIndex_inBounds b s1).bind fun i _ =>
    (s.src2_inBounds b s2).bind fun y _ => (hop _ y).bind fun v _ => .ok (by simp)

theorem State.lanewise_inBounds (d s1 : Byte) (s2 : Word) {op : Lanes → Lanes → Except Cause Lanes}
    (hop : ∀ x y, InBounds (fun _ => True) (op x y)) :
    InBounds (fun t => t.errCause = s.errCause) (s.lanewise b d s1 s2 op) :=
  (vectorIndex_inBounds d.toNat).bind fun k _ => (vectorIndex_inBounds s1.toNat).bind fun i _ =>
    (vectorIndex_inBounds s2.toNat).bind fun j _ => (hop _ _).bind fun v _ => .ok (by simp)

end Operands

theorem divWord_inBounds (b : Bank) (x y : Word) : InBounds (fun _ => True) (divWord b x y) := by
  unfold divWord
  split
  · exact .error (by simp)
  · exact .ok trivial

theorem Frontier.push_inBounds (q : Frontier) (x : Word) : InBounds (fun _ => True) (q.push x) :=
  .of_error fun c hc => by rcases Frontier.push_eq_error.1 hc with ⟨-, rfl⟩ | ⟨-, -, rfl⟩ <;> simp

theorem Frontier.pop_inBounds (q : Frontier) : InBounds (fun _ => True) q.pop :=
  .of_error fun c hc => by rcases Frontier.pop_eq_error.1 hc with ⟨-, rfl⟩ | ⟨-, -, rfl⟩ <;> simp

theorem Frontier.testEmpty_inBounds (q : Frontier) : InBounds (fun _ => True) q.testEmpty :=
  .of_error fun c hc => by obtain ⟨-, rfl⟩ := Frontier.testEmpty_eq_error.1 hc; simp

theorem Frontier.fill_inBounds (q : Frontier) (n : Nat) : InBounds (fun _ => True) (q.fill n) :=
  .of_error fun c hc => by rcases Frontier.fill_eq_error.1 hc with ⟨-, rfl⟩ | ⟨-, -, rfl⟩ <;> simp

/-! #### The queries on a well-formed graph -/

section Queries
variable {g : Csr} (hg : g.Premise)

theorem Csr.needNode_inBounds (g : Csr) (x : Word) : InBounds (fun u => u < g.n.toNat) (g.needNode x) :=
  ⟨fun _ hu => (Csr.needNode_eq_ok.1 hu).2, fun he => by simpa using (Csr.needNode_eq_error.1 he).2⟩

include hg

theorem Csr.Premise.row_inBounds {u : Nat} (hu : u ≤ g.n.toNat) :
    InBounds (fun lo => lo.toInt = g.rowStart u) (g.row u) := by
  obtain ⟨lo, hlo⟩ := hg.exists_rowIndex hu
  rw [Csr.row, csrEntry_of_some hlo]
  exact .ok (Csr.rowStart_eq hlo).symm

/-- col_index and val have an entry at every slot below the length of col_index. -/
theorem Csr.Premise.slot_inBounds {j : Int} (h0 : 0 ≤ j) (hj : j < g.colIndex.length) :
    InBounds (fun _ => True) (g.col j) ∧ InBounds (fun _ => True) (g.val j) := by
  have hval := hg.valLen
  exact ⟨.of_error fun c hc => by have := (csrEntry_eq_error hc).2; omega,
    .of_error fun c hc => by have := (csrEntry_eq_error hc).2; omega⟩

theorem Csr.Premise.degree_inBounds {u : Nat} (hu : u < g.n.toNat) : InBounds (fun _ => True) (g.degree u) :=
  (hg.row_inBounds hu.le).bind fun _ _ => (hg.row_inBounds hu).bind fun _ _ => .ok trivial

theorem Csr.Premise.hasEdge_inBounds {u : Nat} (hu : u < g.n.toNat) (v : Word) :
    InBounds (fun _ => True) (g.hasEdge u v) := by
  refine InBounds.bind (P := fun _ => True) ?_ fun _ _ => .ok trivial
  refine (hg.row_inBounds hu.le).bind fun lo hlo => (hg.row_inBounds hu).bind fun hi hhi => ?_
  have hinside : 0 ≤ lo.toInt ∧ hi.toInt ≤ g.colIndex.length :=
    ⟨hlo ▸ hg.rowStart_nonneg hu.le, hhi ▸ hg.rowStart_le hu⟩
  rw [if_pos hinside]
  split
  · exact .ok trivial
  · exact .ok trivial

/-- The loop of ENEXT ends past the last row, or in a row of the graph at an offset inside it. -/
theorem Csr.Premise.seekEdge_inBounds (fuel u e : Nat) (hfuel : g.n.toNat ≤ fuel + u) :
    InBounds (fun p => p.1 < g.n.toNat → g.rowStart p.1 + p.2 < g.rowStart (p.1 + 1)) (g.seekEdge fuel u e) := by
  induction fuel generalizing u e with
  | zero => exact .ok fun hlt => absurd hlt (by simpa using hfuel)
  | succ fuel ih =>
    unfold Csr.seekEdge
    split
    · next hu =>
      refine (hg.row_inBounds hu.le).bind fun lo hlo => (hg.row_inBounds hu).bind fun hi hhi => ?_
      split
      · exact ih (u + 1) 0 (by omega)
      · next hlt => exact .ok fun _ => by simpa [← hlo, ← hhi] using hlt
    · next hu => exact .ok fun hlt => absurd hlt hu

end Queries

/-! #### Every execute and every step on a well-formed graph -/

section Exec
variable {s : State} (hg : s.graph.Premise)
include hg

/-- Every execute but HALT's: only the reads of row_index, col_index and val could raise CSR_BOUNDS, and the premise gives
each of them its entry. -/
theorem exec_inBounds (i : Instr) (hi : i ≠ .halt) :
    ∃ r, exec i s = conclude s r ∧ InBounds (fun t => t.errCause = s.errCause) r := by
  cases i with
  | halt => exact absurd rfl hi
  | jmp a | bz a | bnz a | blt a | bge a => exact ⟨_, rfl, s.branch_inBounds a _⟩
  | niter n => exact ⟨_, rfl, (iterIndex_inBounds n).bind fun k _ => .ok rfl⟩
  | nnext n =>
    refine ⟨_, rfl, (iterIndex_inBounds n).bind fun k _ => (s.graph.needNode_inBounds _).bind fun u hu =>
      (hg.row_inBounds hu.le).bind fun lo hlo => (hg.row_inBounds (u := u + 1) hu).bind fun hi hhi => ?_⟩
    dsimp only
    split
    · have hlow := hg.rowStart_nonneg hu.le
      have hhigh := hg.rowStart_le (u := u + 1) hu
      obtain ⟨hcol, hval⟩ := hg.slot_inBounds (j := lo.toInt + (s.readNiter k).toNat) (by omega) (by omega)
      exact hcol.bind fun nb _ => hval.bind fun w _ => .ok rfl
    · exact .ok rfl
  | eiter => exact ⟨.ok _, rfl, .ok rfl⟩
  | enext =>
    refine ⟨_, rfl, ?_⟩
    dsimp only
    split
    · exact .error (by simp)
    · refine (hg.seekEdge_inBounds _ _ _ (by omega)).bind fun p hp => ?_
      split
      · exact .ok rfl
      · next hlt =>
        have hu : p.1 < s.graph.n.toNat := not_le.1 hlt
        refine (hg.row_inBounds hu.le).bind fun lo hlo => ?_
        have hslot := hp hu
        have hlow := hg.rowStart_nonneg hu.le
        have hhigh := hg.rowStart_le (u := p.1 + 1) hu
        obtain ⟨hcol, hval⟩ := hg.slot_inBounds (j := lo.toInt + p.2) (by omega) (by omega)
        exact hcol.bind fun nb _ => hval.bind fun w _ => .ok rfl
  | hase =>
    exact ⟨_, rfl, (s.graph.needNode_inBounds _).bind fun u hu =>
      (hg.hasEdge_inBounds hu _).bind fun hit _ => .ok rfl⟩
  | deg r =>
    exact ⟨_, rfl, (scalarIndex_inBounds .int r).bind fun k _ => (s.graph.needNode_inBounds _).bind fun u hu =>
      (hg.degree_inBounds hu).bind fun v _ => .ok rfl⟩
  | add b d s1 s2 | sub b d s1 s2 | mul b d s1 s2 => exact ⟨_, rfl, s.arith_inBounds b d s1 s2 fun x y => .ok trivial⟩
  | div b d s1 s2 => exact ⟨_, rfl, s.arith_inBounds b d s1 s2 (divWord_inBounds b)⟩
  | cmp b s1 x =>
    exact ⟨_, rfl, (scalarIndex_inBounds b s1).bind fun k _ => (s.src2_inBounds b x).bind fun y _ => .ok rfl⟩
  | mov b d x =>
    exact ⟨_, rfl, (scalarIndex_inBounds b d).bind fun k _ => (s.src1_inBounds b x).bind fun v _ => .ok (by simp)⟩
  | movc b d x =>
    exact ⟨_, rfl, (scalarIndex_inBounds b d).bind fun k _ => (scalarIndex_inBounds b.other x).bind fun j _ =>
      .ok (by simp)⟩
  | ld b d x =>
    exact ⟨_, rfl, (scalarIndex_inBounds b d).bind fun k _ => (s.effAddr_inBounds 1 x).bind fun a _ => .ok (by simp)⟩
  | st b d x =>
    exact ⟨_, rfl, (scalarIndex_inBounds b d).bind fun k _ => (s.effAddr_inBounds 1 x).bind fun a _ => .ok rfl⟩
  | fpush r =>
    exact ⟨_, rfl, (scalarIndex_inBounds .int r).bind fun k _ => (s.nextQ.push_inBounds _).bind fun q _ => .ok rfl⟩
  | fpop r =>
    exact ⟨_, rfl, (scalarIndex_inBounds .int r).bind fun k _ => s.currentQ.pop_inBounds.bind fun p _ => .ok rfl⟩
  | fempty => exact ⟨_, rfl, s.currentQ.testEmpty_inBounds.bind fun e _ => .ok rfl⟩
  | fswap => exact ⟨.ok _, rfl, .ok rfl⟩
  | ffill => exact ⟨_, rfl, (s.currentQ.fill_inBounds _).bind fun q _ => .ok rfl⟩
  | vadd b d s1 s2 | vsub b d s1 s2 | vmul b d s1 s2 =>
    exact ⟨_, rfl, s.lanewise_inBounds b d s1 s2 fun x y => .ok trivial⟩
  | vdiv b d s1 s2 =>
    refine ⟨_, rfl, s.lanewise_inBounds b d s1 s2 fun x y => ?_⟩
    split
    · exact .error (by simp)
    · exact .ok trivial
  | vld b d x =>
    exact ⟨_, rfl, (vectorIndex_inBounds d.toNat).bind fun k _ => (s.effAddr_inBounds 4 x).bind fun a _ =>
      .ok (by simp)⟩
  | vst b d x =>
    exact ⟨_, rfl, (vectorIndex_inBounds d.toNat).bind fun k _ => (s.effAddr_inBounds 4 x).bind fun a _ => .ok rfl⟩
  | vset b d x =>
    exact ⟨_, rfl, (vectorIndex_inBounds d.toNat).bind fun k _ => (s.src1_inBounds b x).bind fun v _ => .ok (by simp)⟩
  | vsum b d v =>
    exact ⟨_, rfl, (scalarIndex_inBounds b d).bind fun k _ => (vectorIndex_inBounds v.toNat).bind fun j _ =>
      .ok (by simp)⟩
  | parallel | barrier | lock | unlock => exact ⟨.ok _, rfl, .ok rfl⟩

theorem exec_errCause_ne_csrBounds {i : Instr} {t : State} (h : exec i s = .next t) (hs : s.errCause ≠ 8) :
    t.errCause ≠ 8 := by
  by_cases hi : i = .halt
  · subst hi
    obtain rfl : s.halt = t := Host.Outcome.next.inj h
    simp
  · obtain ⟨r, he, hr⟩ := exec_inBounds hg i hi
    rcases (conclude_eq_next s t r).1 (he ▸ h) with rfl | ⟨c, rfl, rfl⟩
    · rw [hr.value t rfl]
      exact hs
    · intro hc
      exact hr.noBounds (by cases c <;> simp [Cause.code] at hc ⊢)

/-- A tick on a well-formed graph records no CSR_BOUNDS, under every abort function. -/
theorem tick_errCause_ne_csrBounds {abort : State → Bool} {t : State} (h : tick abort s = .next t)
    (hs : s.errCause ≠ 8) : t.errCause ≠ 8 := by
  rcases tick_eq_next h with ⟨-, rfl⟩ | ⟨-, -, rfl⟩ | ⟨-, -, -, rfl⟩ | ⟨-, -, i, u, -, hu, rfl⟩
  · exact hs
  · exact (by decide : Cause.noError.code ≠ 8)
  · exact (by decide : Cause.decode.code ≠ 8)
  · have hexec : u.errCause ≠ 8 := exec_errCause_ne_csrBounds (s := s.beforeExecute s.fetchWord) hg hu hs
    rcases u.countClock.sampleAbort_cases abort s.pc with he | ⟨-, -, he⟩ <;> rw [he]
    · exact hexec
    · exact (by decide : Cause.hostAbort.code ≠ 8)

end Exec

/-- A property that every step keeps is kept by every run. -/
theorem run_induction {P : State → Prop} (keep : ∀ s t, step s = .next t → P s → P t) {k : Nat} {s t : State}
    (h : Sys2Proof.core.run k s = .next t) (hs : P s) : P t := by
  induction k generalizing s with
  | zero =>
    obtain rfl : s = t := Host.Outcome.next.inj h
    exact hs
  | succ k ih =>
    obtain ⟨u, hu⟩ := tick_next (fun t => t.hostAbort) s
    have hstep : Sys2Proof.core.step s = .next u := hu
    simp only [Host.Core.run, hstep] at h
    exact ih h (keep s u hu hs)

/-- Settles O36: a well-formed graph and no recorded CSR_BOUNDS are kept together by every step. -/
theorem csrBoundsOnlyWhenPremiseBroken : Obligations.CsrBoundsOnlyWhenPremiseBroken := by
  intro k s t hg hs h
  have kept : t.graph.Premise ∧ t.errCause ≠ 8 := by
    refine run_induction (P := fun x => x.graph.Premise ∧ x.errCause ≠ 8) (fun x y hxy hx => ?_) h ⟨hg, hs⟩
    obtain ⟨hgraph, hcause⟩ := hx
    exact ⟨(tick_graph_prog hxy).1 ▸ hgraph, tick_errCause_ne_csrBounds hgraph hxy hcause⟩
  exact kept.2

end Sys2Proof.Machine

namespace Sys2Proof.Machine

/-! #### The edge walk (41_graph.md R189, R190) -/

/-- Where a walk stands after the edges of the slots below `j`: the slot of Rnode and eiter is `j`, and it lies in
Rnode's row or at that row's end. -/
structure State.WalkAt (s : State) (j : Nat) : Prop where
  node_le : (s.readR rnode).toNat ≤ s.graph.n.toNat
  slot_eq : s.graph.rowStart (s.readR rnode).toNat + s.eiter.toNat = j
  slot_le : (s.readR rnode).toNat < s.graph.n.toNat → j ≤ s.graph.rowStart ((s.readR rnode).toNat + 1)
  at_end : (s.readR rnode).toNat = s.graph.n.toNat → s.eiter.toNat = 0

/-- What an ENEXT that loads slot `j` leaves in the registers. -/
structure State.Emits (s : State) (j : Nat) (nb w : Word) : Prop where
  flagZ : s.flagZ = false
  nbr : s.readR rnbr = nb
  val : s.readR rval = w
  node_lt : (s.readR rnode).toNat < s.graph.n.toNat
  row_le : s.graph.rowStart (s.readR rnode).toNat ≤ j
  lt_row_end : j < s.graph.rowStart ((s.readR rnode).toNat + 1)

/-- EITER stands the walk at the first slot. -/
theorem walkAt_zero_of_eiter {s t : State} (hg : s.graph.Premise) (h : exec .eiter s = .next t) :
    t.graph = s.graph ∧ t.WalkAt 0 := by
  obtain rfl : (s.writeEiter 0).writeR rnode 0 = t := Host.Outcome.next.inj h
  have hnode : ((s.writeEiter 0).writeR rnode 0).readR rnode = 0 := State.readR_writeR_same _ _ _
  refine ⟨rfl, ?_, ?_, fun hn => ?_, fun _ => rfl⟩ <;> rw [hnode] at *
  · exact Nat.zero_le _
  · exact (add_zero _).trans hg.rowStart_zero
  · exact hg.rowStart_nonneg hn

section Walk
variable {s : State} {j : Nat} (hg : s.graph.Premise) (hw : s.WalkAt j)
include hg hw

/-- A row of the walk whose end is not past slot `j` has no edge left. -/
theorem State.WalkAt.exhausted {k : Nat} (hk : (s.readR rnode).toNat ≤ k) (hkn : k < s.graph.n.toNat)
    (hend : s.graph.rowStart (k + 1) ≤ j) :
    s.graph.Exhausted k (rowOffset (s.readR rnode).toNat s.eiter.toNat k) := by
  obtain ⟨lo, hlo⟩ := hg.exists_rowIndex hkn.le
  obtain ⟨hi, hhi⟩ := hg.exists_rowIndex (u := k + 1) hkn
  refine ⟨lo, hi, hlo, hhi, ?_⟩
  rw [← Csr.rowStart_eq hlo, ← Csr.rowStart_eq hhi]
  rcases hk.eq_or_lt with rfl | hlt
  · rw [rowOffset_self, hw.slot_eq]
    exact hend
  · have hslot := hw.slot_le (hlt.trans hkn)
    have hmono := hg.rowStart_mono (u := (s.readR rnode).toNat + 1) hlt hkn.le
    rw [rowOffset_of_ne hlt.ne']
    omega

/-- The walk enters the first row `v` that ends past slot `j` at slot `j` itself. -/
theorem State.WalkAt.slot_of_row {v : Nat} (huv : (s.readR rnode).toNat ≤ v) (hv : v < s.graph.n.toNat)
    (hx : ∀ k, (s.readR rnode).toNat ≤ k → k < v → s.graph.rowStart (k + 1) ≤ j) :
    s.graph.rowStart v + rowOffset (s.readR rnode).toNat s.eiter.toNat v = j := by
  rcases huv.eq_or_lt with rfl | hlt
  · rw [rowOffset_self, hw.slot_eq]
  · have hslot := hw.slot_le (hlt.trans hv)
    have hmono := hg.rowStart_mono (u := (s.readR rnode).toNat + 1) hlt hv.le
    have hprev := hx (v - 1) (by omega) (by omega)
    rw [Nat.sub_add_cancel (by omega)] at hprev
    rw [rowOffset_of_ne hlt.ne']
    omega

/-- While slots are left, some row from Rnode on ends past slot `j`; the first of them is next. -/
theorem State.WalkAt.exists_next_row (hj : j < s.graph.colIndex.length) :
    ∃ v, (s.readR rnode).toNat ≤ v ∧ v < s.graph.n.toNat ∧ j < s.graph.rowStart (v + 1) ∧
      ∀ k, (s.readR rnode).toNat ≤ k → k < v → s.graph.rowStart (k + 1) ≤ j := by
  have hlast := hg.rowStart_last
  have hn : (s.readR rnode).toNat < s.graph.n.toNat := by
    refine lt_of_le_of_ne hw.node_le fun he => ?_
    have hslot := hw.slot_eq
    rw [hw.at_end he, he] at hslot
    omega
  have hex : ∃ v, (s.readR rnode).toNat ≤ v ∧ j < s.graph.rowStart (v + 1) :=
    ⟨s.graph.n.toNat - 1, by omega, by rw [Nat.sub_add_cancel (by omega)]; omega⟩
  obtain ⟨hle, hlt⟩ := Nat.find_spec hex
  have hmin : Nat.find hex ≤ s.graph.n.toNat - 1 :=
    Nat.find_min' hex ⟨by omega, by rw [Nat.sub_add_cancel (by omega)]; omega⟩
  exact ⟨Nat.find hex, hle, by omega, hlt, fun k hk hkv => not_lt.1 fun hc => Nat.find_min hex hkv ⟨hk, hc⟩⟩

variable (hn : s.graph.n.toNat < 2 ^ 31)
include hn

omit hg in
theorem State.WalkAt.node_toInt : (s.readR rnode).toInt = (s.readR rnode).toNat :=
  BitVec.toInt_eq_toNat_of_lt (by have := hw.node_le; omega)

/-- ENEXT at slot `j` loads its edge and stands the walk at slot `j + 1`. -/
theorem State.WalkAt.exec_enext {nb w : Word} (hnb : s.graph.colIndex[j]? = some nb)
    (hval : s.graph.values[j]? = some w) :
    ∃ t, exec .enext s = .next t ∧ t.graph = s.graph ∧ t.WalkAt (j + 1) ∧ t.Emits j nb w := by
  obtain ⟨hj, -⟩ := List.getElem?_eq_some_iff.1 hnb
  obtain ⟨v, huv, hv, hend, hx⟩ := hw.exists_next_row hg hj
  obtain ⟨lo, hlo⟩ := hg.exists_rowIndex hv.le
  obtain ⟨hi, hhi⟩ := hg.exists_rowIndex (u := v + 1) hv
  have hslot := hw.slot_of_row hg huv hv hx
  have hlow := hg.rowStart_nonneg hv.le
  have hhigh : s.graph.rowStart (v + 1) < 2 ^ 31 := by rw [Csr.rowStart_eq hhi]; exact hi.toInt_lt
  refine ⟨_, exec_enext_of_edge (hw.node_toInt hn) huv hv
    (fun k hk hkv => hw.exhausted hg hk (hkv.trans hv) (hx k hk hkv)) hlo hhi (slot := j)
    (by rw [← Csr.rowStart_eq hlo, hslot]) (by rw [← Csr.rowStart_eq hhi]; exact hend) (by omega) hnb hval, rfl, ?_⟩
  generalize rowOffset (s.readR rnode).toNat s.eiter.toNat v = e at hslot
  have hnode : ((s.loadEdge v e nb w).readR rnode).toNat = v := by
    rw [State.loadEdge_rnode, BitVec.toNat_ofNat, Nat.mod_eq_of_lt (by omega)]
  have heiter : (s.loadEdge v e nb w).eiter.toNat = e + 1 := by
    rw [State.loadEdge_eiter, BitVec.toNat_ofNat, Nat.mod_eq_of_lt (by omega)]
  constructor
  · constructor <;> simp only [State.loadEdge_graph, hnode, heiter] <;> omega
  · exact ⟨State.loadEdge_flagZ .., State.loadEdge_rnbr .., State.loadEdge_rval ..,
      by simpa only [State.loadEdge_graph, hnode] using hv,
      by simp only [State.loadEdge_graph, hnode]; omega, by simpa only [State.loadEdge_graph, hnode] using hend⟩

/-- ENEXT after the last slot reports the end. -/
theorem State.WalkAt.exec_enext_end (hj : j = s.graph.colIndex.length) :
    ∃ t, exec .enext s = .next t ∧ t.flagZ = true ∧ t.readR rnode = s.graph.n := by
  have hu := hw.node_toInt hn
  rcases hw.node_le.eq_or_lt with hend | hlt
  · exact ⟨_, exec_enext_of_past_end hu hend.ge, State.flagZ_setZ _ _, BitVec.eq_of_toNat_eq hend⟩
  · refine ⟨_, exec_enext_of_all_exhausted hu hlt fun k hk hkn => ?_, State.flagZ_setZ _ _,
      State.readR_writeR_same _ _ _⟩
    exact hw.exhausted hg hk hkn (hj ▸ hg.rowStart_le hkn)

end Walk

theorem enextTimes_succ {k : Nat} {s t : State} (h : enextTimes k s = .next t) :
    enextTimes (k + 1) s = exec .enext t := by
  simp only [enextTimes, h]

/-- From the first slot, `j` executions of ENEXT stand the walk at slot `j`. -/
theorem State.WalkAt.enextTimes {s : State} (hg : s.graph.Premise) (hn : s.graph.n.toNat < 2 ^ 31) (hw : s.WalkAt 0)
    {j : Nat} (hj : j ≤ s.graph.colIndex.length) :
    ∃ t, enextTimes j s = .next t ∧ t.graph = s.graph ∧ t.WalkAt j := by
  induction j with
  | zero => exact ⟨s, rfl, rfl, hw⟩
  | succ j ih =>
    obtain ⟨x, hx, hgraph, hwx⟩ := ih (by omega)
    have hval := hg.valLen
    obtain ⟨t, ht, htg, hwt, -⟩ := hwx.exec_enext (hgraph ▸ hg) (hgraph ▸ hn)
      (List.getElem?_eq_getElem (by rw [hgraph]; omega)) (List.getElem?_eq_getElem (by rw [hgraph]; omega))
    exact ⟨t, (enextTimes_succ hx).trans ht, htg.trans hgraph, hwt⟩

/-- Settles O33: EITER stands the walk at slot 0 and each ENEXT takes it one slot on, until it stands after the last. -/
theorem edgeWalkEmitsEveryEdgeOnce : Obligations.EdgeWalkEmitsEveryEdgeOnce := by
  intro s t hg hn heiter
  obtain ⟨hstart, hzero⟩ := walkAt_zero_of_eiter hg heiter
  rw [← hstart] at hg hn ⊢
  refine ⟨fun j nb w hnb hval => ?_, ?_⟩
  · obtain ⟨hj, -⟩ := List.getElem?_eq_some_iff.1 hnb
    obtain ⟨x, hx, hgx, hwx⟩ := hzero.enextTimes hg hn hj.le
    rw [← hgx] at hg hn hnb hval ⊢
    obtain ⟨y, hy, hgy, -, hemit⟩ := hwx.exec_enext hg hn hnb hval
    rw [← hgy] at hg ⊢
    obtain ⟨lo, hlo⟩ := hg.exists_rowIndex hemit.node_lt.le
    obtain ⟨hi, hhi⟩ := hg.exists_rowIndex (u := (y.readR rnode).toNat + 1) hemit.node_lt
    exact ⟨y, lo, hi, (enextTimes_succ hx).trans hy, hemit.flagZ, hemit.nbr, hemit.val, hlo, hhi,
      Csr.rowStart_eq hlo ▸ hemit.row_le, Csr.rowStart_eq hhi ▸ hemit.lt_row_end⟩
  · obtain ⟨x, hx, hgx, hwx⟩ := hzero.enextTimes hg hn le_rfl
    rw [← hgx] at hg hn hwx ⊢
    obtain ⟨y, hy, hz, hnode⟩ := hwx.exec_enext_end hg hn rfl
    exact ⟨y, (enextTimes_succ (hgx ▸ hx)).trans hy, hz, hnode⟩

end Sys2Proof.Machine

/-! ### Scalar arithmetic, compare, move and convert (42_scalar.md R220 to R229) -/

namespace Sys2Proof.Machine

/-! #### Register fields and operands (R222; 10_state.md R36) -/

section Operands
variable {s : State} {b : Bank} {d s1 : Byte} {s2 : Src2} {op : Word → Word → Except Cause Word} {x y : Word}

/-- A source-1 register that reads a value names a register of the bank. -/
theorem State.src1_reg_eq_ok (h : s.src1 b (.reg s1) = .ok x) :
    ∃ i, scalarIndex b s1.toNat = .ok i ∧ s.readScalar b i = x := by
  obtain ⟨i, hi, hx⟩ := (bind_eq_ok _ _ _).1 h
  exact ⟨i, hi, Except.ok.inj hx⟩

theorem scalarOk_eq_false (h : ¬ d.toNat < b.scalars) : scalarOk b d = false := decide_eq_false h

/-- A source-2 field outside its bank is an operand that names no register. -/
theorem Src2.ok_eq_false (h : ∃ i, s2 = .reg i ∧ ¬ i.toNat < b.scalars) : s2.ok b = false := by
  obtain ⟨i, rfl, hi⟩ := h
  exact decide_eq_false hi

/-- A single source field outside its bank is an operand that names no register. -/
theorem Src1.ok_eq_false {z : Src1} (h : ∃ i, z = .reg i ∧ ¬ i.toNat < b.scalars) : z.ok b = false := by
  obtain ⟨i, rfl, hi⟩ := h
  exact decide_eq_false hi

/-- The three register fields of an arithmetic form, one of them outside its bank. -/
theorem arith_fields_eq_false
    (h : ¬ d.toNat < b.scalars ∨ ¬ s1.toNat < b.scalars ∨ ∃ i, s2 = .reg i ∧ ¬ i.toNat < b.scalars) :
    (scalarOk b d && scalarOk b s1 && s2.ok b) = false := by
  rcases h with h | h | h
  · simp [scalarOk_eq_false h]
  · simp [scalarOk_eq_false h]
  · simp [Src2.ok_eq_false h]

/-- An arithmetic form on the values its operands read. -/
theorem State.arith_of_operands (hd : d.toNat < b.scalars) (hx : s.src1 b (.reg s1) = .ok x) (hy : s.src2 b s2 = .ok y) :
    s.arith b d s1 s2 op = (op x y >>= fun v => .ok (s.writeScalar b ⟨d.toNat, hd⟩ v)) := by
  obtain ⟨i, hi, rfl⟩ := State.src1_reg_eq_ok hx
  simp [State.arith, scalarIndex_of_lt hd, hi, hy]

end Operands

/-! #### ADD, SUB, MUL and MOV (R223, R224, R225, R228) -/

/-- An opcode that concludes the shared arithmetic form with a total operation follows the rule of the four forms. -/
theorem arithRule_of_exec {mk : Bank → Byte → Byte → Src2 → Instr} (op : Bank → Word → Word → Word)
    (h : ∀ b d s1 s2 s, exec (mk b d s1 s2) s = conclude s (s.arith b d s1 s2 fun x y => .ok (op b x y))) :
    ArithRule mk (op .int) (op .float) := by
  refine ⟨fun s d s1 s2 hd h1 h2 => ?intReg, fun s d s1 v hd h1 => ?intImm, fun s d s1 s2 hd h1 h2 => ?floatReg,
    fun s d s1 v hd h1 => ?floatImm, fun s b d s1 s2 hbad => ?badField⟩
  case intReg => rw [h, State.arith_of_lt (b := .int) hd h1 (s.src2_reg (b := .int) h2)]; rfl
  case intImm => rw [h, State.arith_of_lt (b := .int) hd h1 (s.src2_imm .int v)]; rfl
  case floatReg => rw [h, State.arith_of_lt (b := .float) hd h1 (s.src2_reg (b := .float) h2)]; rfl
  case floatImm => rw [h, State.arith_of_lt (b := .float) hd h1 (s.src2_imm .float v)]; rfl
  case badField =>
    have hchecked := s.arith_checked b d s1 s2 (op := fun x y => .ok (op b x y)) fun x y => .ok _
    rw [h, hchecked.illFormed (arith_fields_eq_false hbad), conclude_error]
    rfl

/-- Settles O37: the three opcodes conclude the shared arithmetic form with their bank's operation. -/
theorem addSubMulFollowTheirRules : Obligations.AddSubMulFollowTheirRules :=
  ⟨Opcode.add.encodedAs_byte, arithRule_of_exec addWord fun _ _ _ _ _ => rfl,
    Opcode.sub.encodedAs_byte, arithRule_of_exec subWord fun _ _ _ _ _ => rfl,
    Opcode.mul.encodedAs_byte, arithRule_of_exec mulWord fun _ _ _ _ _ => rfl⟩

/-- MOV with a register of the bank as destination writes the value its source reads. -/
theorem exec_mov_of_ok {s : State} {b : Bank} {d : Byte} {x : Src1} {v : Word} (hd : d.toNat < b.scalars)
    (hx : s.src1 b x = .ok v) : exec (.mov b d x) s = .next (s.writeScalar b ⟨d.toNat, hd⟩ v) := by
  show execMov b d x s = _
  simp [execMov, scalarIndex_of_lt hd, hx]

/-- Settles O41: in each form the destination takes what the source reads. -/
theorem movFollowsItsRule : Obligations.MovFollowsItsRule := by
  refine ⟨Opcode.mov.encodedAs_byte, fun s d i hd hi => ?intReg, fun s d v hd => ?intImm, fun s d i hd hi => ?floatReg,
    fun s d v hd => ?floatImm, fun s b d x hbad => ?badField⟩
  case intReg => exact exec_mov_of_ok (b := .int) hd (s.src1_reg (b := .int) hi)
  case intImm => exact exec_mov_of_ok (b := .int) hd (s.src1_imm .int v)
  case floatReg => exact exec_mov_of_ok (b := .float) hd (s.src1_reg (b := .float) hi)
  case floatImm => exact exec_mov_of_ok (b := .float) hd (s.src1_imm .float v)
  case badField =>
    refine exec_of_illFormed s ?_
    rcases hbad with h | h
    · simp [Instr.wellFormed, scalarOk_eq_false h]
    · simp [Instr.wellFormed, Src1.ok_eq_false h]

/-! #### DIV (R226, R220) -/

/-- The exact quotient of two i32 values fits an i32, except -2^31 / -1 (R220). -/
theorem intQuotient_toInt (a b : Word) :
    (intQuotient a b).toInt = if a.toInt = -2 ^ 31 ∧ b.toInt = -1 then -2 ^ 31 else a.toInt.tdiv b.toInt := by
  split
  · next h =>
    obtain ⟨ha, hb⟩ := h
    rw [intQuotient, ha, hb]
    decide
  · next h =>
    have hfits : a ≠ BitVec.intMin 32 ∨ b ≠ -1#32 := by
      by_contra hcon
      push Not at hcon
      obtain ⟨rfl, rfl⟩ := hcon
      exact h (by decide)
    calc (intQuotient a b).toInt = (a.sdiv b).toInt := by rw [intQuotient, BitVec.toInt_ofInt, BitVec.toInt_sdiv]
      _ = a.toInt.tdiv b.toInt := BitVec.toInt_sdiv_of_ne_or_ne a b hfits

/-- Settles O38: the shared arithmetic form, with the check of the divisor in the integer bank alone. -/
theorem divFollowsItsRule : Obligations.DivFollowsItsRule := by
  refine ⟨Opcode.div.encodedAs_byte, fun s d s1 s2 a b ha hb hd => ⟨fun hzero => ?zero, fun hne => ?quotient⟩,
    fun s d s1 s2 a b ha hb hd => ?float, fun s b d s1 s2 hbad => ?badField⟩
  case zero =>
    show conclude s (s.arith .int d s1 s2 (divWord .int)) = _
    rw [State.arith_of_operands (b := .int) hd ha hb, divWord, if_pos ⟨rfl, hzero⟩]
    rfl
  case quotient =>
    refine ⟨intQuotient a b, intQuotient_toInt a b, ?_⟩
    show conclude s (s.arith .int d s1 s2 (divWord .int)) = _
    rw [State.arith_of_operands (b := .int) hd ha hb, divWord, if_neg fun h => hne h.2]
    rfl
  case float =>
    show conclude s (s.arith .float d s1 s2 (divWord .float)) = _
    rw [State.arith_of_operands (b := .float) hd ha hb, divWord, if_neg fun h => nomatch h.1]
    rfl
  case badField => exact exec_of_illFormed s (arith_fields_eq_false hbad)

/-! #### CMP, and the branches after it (R227; 40_control.md R153 to R156) -/

/-- CMP writes FLAGS from the values its operands read. -/
theorem exec_cmp_of_ok {s : State} {b : Bank} {s1 : Byte} {s2 : Src2} {x y : Word} (hx : s.src1 b (.reg s1) = .ok x)
    (hy : s.src2 b s2 = .ok y) : exec (.cmp b s1 s2) s = .next (s.setFlags (cmpFlags b x y)) := by
  obtain ⟨i, hi, rfl⟩ := State.src1_reg_eq_ok hx
  show execCmp b s1 s2 s = _
  simp [execCmp, hi, hy]

/-- Settles O39: the three cases of the sign of the difference, and the unordered one. -/
theorem cmpFollowsItsRule : Obligations.CmpFollowsItsRule := by
  refine ⟨Opcode.cmp.encodedAs_byte, fun s s1 s2 a b ha hb => exec_cmp_of_ok ha hb, fun s s1 s2 a b ha hb => ?float,
    fun s b s1 s2 hbad => ?badField⟩
  case float =>
    have hpad : Config.cmpfUnordered.setWidth 8 = 0#5 ++ Config.cmpfUnordered := by
      generalize Config.cmpfUnordered = u
      revert u; decide
    show exec (.cmp .float s1 s2) s = _
    rw [exec_cmp_of_ok ha hb, cmpFlags, cmpFloatFlags, hpad]
    rfl
  case badField =>
    refine exec_of_illFormed s ?_
    rcases hbad with h | h
    · simp [Instr.wellFormed, scalarOk_eq_false h]
    · simp [Instr.wellFormed, Src2.ok_eq_false h]

/-- Each bit of the sign's FLAGS is set exactly for its sign. -/
theorem signFlags_bits (n : Int) :
    ((signFlags n).getLsbD 0 = true ↔ n = 0) ∧ ((signFlags n).getLsbD 1 = true ↔ n < 0) ∧
    ((signFlags n).getLsbD 2 = true ↔ 0 < n) := by
  unfold signFlags
  split
  · next h => subst h; decide
  · split
    · simp; omega
    · simp; omega

/-- Settles O28: the bits CMP writes are the order of the operands, and each branch is taken by its bits. -/
theorem compareThenBranchFollowsSignedOrder : Obligations.CompareThenBranchFollowsSignedOrder := by
  intro s t s1 s2 x y a hx hy ha hcmp
  rw [exec_cmp_of_ok hx hy, Host.Outcome.next.injEq] at hcmp
  obtain ⟨hz, hn, hp⟩ := signFlags_bits (x.toInt - y.toInt)
  have hflags : t.flags = signFlags (x.toInt - y.toInt) := by rw [← hcmp]; rfl
  have hZ : t.flagZ = true ↔ x = y := by
    rw [State.flagZ, hflags, hz, sub_eq_zero, BitVec.toInt_inj]
  have hN : t.flagN = true ↔ x.toInt < y.toInt := by rw [State.flagN, hflags, hn, sub_neg]
  have hP : t.flagP = true ↔ y.toInt < x.toInt := by rw [State.flagP, hflags, hp, sub_pos]
  refine ⟨conclude_branch_of_lt ha hN, conclude_branch_of_lt ha ?bge, conclude_branch_of_lt ha hZ,
    conclude_branch_of_lt ha ?bnz⟩
  case bge => rw [Bool.or_eq_true, hP, hZ, ← BitVec.toInt_inj]; omega
  case bnz => rw [Bool.not_eq_true', ← Bool.not_eq_true, hZ]

end Sys2Proof.Machine

/-! ### binary32: the format, rounding, and the four operations (42_scalar.md R221) -/

namespace Sys2Proof.Machine

/-! #### A value is its sign and its magnitude pattern -/

/-- The magnitude pattern of a value, bits 30..0. -/
def f32Magnitude (v : Word) : Nat := v.toNat % 2 ^ 31

/-- The magnitude of a magnitude pattern in units of 2^-149, read as if no exponent were special: the pattern of an infinity
stands for 2^277, one unit in the last place past the largest finite value. -/
def magnitudeUnits (m : Nat) : Nat :=
  if m / 2 ^ 23 = 0 then m % 2 ^ 23 else (2 ^ 23 + m % 2 ^ 23) * 2 ^ (m / 2 ^ 23 - 1)

section Format
variable {v a b : Word} {negative : Bool} {m : Nat}

theorem f32Negative_eq (v : Word) : f32Negative v = decide (2 ^ 31 ≤ v.toNat) := BitVec.msb_eq_decide v

theorem f32Exponent_eq (v : Word) : f32Exponent v = f32Magnitude v / 2 ^ 23 := by
  simp only [f32Exponent, f32Magnitude, BitVec.extractLsb'_toNat, Nat.shiftRight_eq_div_pow]
  omega

theorem f32Fraction_eq (v : Word) : f32Fraction v = f32Magnitude v % 2 ^ 23 := by
  simp only [f32Fraction, f32Magnitude, BitVec.extractLsb'_toNat, Nat.shiftRight_eq_div_pow]
  omega

theorem f32Magnitude_lt (v : Word) : f32Magnitude v < 2 ^ 31 := Nat.mod_lt _ (by decide)

theorem f32Units_eq (v : Word) : f32Units v = magnitudeUnits (f32Magnitude v) := by
  rw [f32Units, f32Exponent_eq, f32Fraction_eq, magnitudeUnits]

theorem f32IsFinite_iff : f32IsFinite v = true ↔ f32Magnitude v < f32InfMagnitude := by
  have := f32Magnitude_lt v
  simp only [f32IsFinite, bne_iff_ne, f32Exponent_eq, f32InfMagnitude]
  omega

theorem f32IsInf_iff : f32IsInf v = true ↔ f32Magnitude v = f32InfMagnitude := by
  simp only [f32IsInf, Bool.and_eq_true, beq_iff_eq, f32Exponent_eq, f32Fraction_eq, f32InfMagnitude]
  omega

theorem f32IsNaN_iff : f32IsNaN v = true ↔ f32InfMagnitude < f32Magnitude v := by
  have := f32Magnitude_lt v
  simp only [f32IsNaN, Bool.and_eq_true, beq_iff_eq, bne_iff_ne, f32Exponent_eq, f32Fraction_eq, f32InfMagnitude]
  omega

/-- A value is a NaN, an infinity or finite, and only one of them. -/
theorem f32IsNaN_of_finite (h : f32IsFinite v = true) : f32IsNaN v = false := by
  rw [← Bool.not_eq_true, f32IsNaN_iff]
  exact (f32IsFinite_iff.1 h).le.not_gt

theorem f32IsInf_of_finite (h : f32IsFinite v = true) : f32IsInf v = false := by
  rw [← Bool.not_eq_true, f32IsInf_iff]
  exact (f32IsFinite_iff.1 h).ne

theorem f32IsNaN_of_inf (h : f32IsInf v = true) : f32IsNaN v = false := by
  rw [← Bool.not_eq_true, f32IsNaN_iff]
  exact (f32IsInf_iff.1 h).not_gt

theorem f32IsFinite_of_inf (h : f32IsInf v = true) : f32IsFinite v = false := by
  rw [← Bool.not_eq_true, f32IsFinite_iff]
  exact (f32IsInf_iff.1 h).not_lt

theorem f32Pack_toNat (hm : m < 2 ^ 31) : (f32Pack negative m).toNat = (if negative then 2 ^ 31 else 0) + m := by
  rw [f32Pack, BitVec.toNat_ofNat]
  exact Nat.mod_eq_of_lt (by split <;> omega)

@[simp] theorem f32Negative_pack (hm : m < 2 ^ 31) : f32Negative (f32Pack negative m) = negative := by
  rw [f32Negative_eq, f32Pack_toNat hm]
  cases negative with
  | false => simp; omega
  | true => simp

@[simp] theorem f32Magnitude_pack (hm : m < 2 ^ 31) : f32Magnitude (f32Pack negative m) = m := by
  rw [f32Magnitude, f32Pack_toNat hm]
  cases negative <;> simp <;> omega

@[simp] theorem f32Negative_negate (v : Word) : f32Negative (f32Negate v) = !f32Negative v := by
  simp [f32Negate, f32Negative]

@[simp] theorem f32Magnitude_negate (v : Word) : f32Magnitude (f32Negate v) = f32Magnitude v := by
  have hlow (u : Word) : f32Magnitude u = (u.setWidth 31).toNat := (BitVec.toNat_setWidth 31 u).symm
  rw [hlow, hlow, f32Negate, BitVec.setWidth_xor, show (0x80000000#32).setWidth 31 = 0#31 by decide, BitVec.xor_zero]

/-! ##### The signed value -/

@[simp] theorem f32Value_natAbs (v : Word) : (f32Value v).natAbs = f32Units v := by
  unfold f32Value
  split <;> simp

theorem f32Value_eq_zero_iff : f32Value v = 0 ↔ f32Units v = 0 := by rw [← Int.natAbs_eq_zero, f32Value_natAbs]

/-- A nonzero value is negative exactly where its sign bit is set. -/
theorem f32Value_neg_iff (h : f32Value v ≠ 0) : f32Value v < 0 ↔ f32Negative v = true := by
  unfold f32Value at h ⊢
  split
  · next hs => rw [if_pos hs] at h; exact iff_of_true (by omega) hs
  · next hs => exact iff_of_false (by omega) hs

@[simp] theorem f32Value_negate (v : Word) : f32Value (f32Negate v) = -f32Value v := by
  simp only [f32Value, f32Units_eq, f32Negative_negate, f32Magnitude_negate]
  cases f32Negative v <;> simp

@[simp] theorem f32IsNaN_negate (v : Word) : f32IsNaN (f32Negate v) = f32IsNaN v := by
  rw [Bool.eq_iff_iff, f32IsNaN_iff, f32IsNaN_iff, f32Magnitude_negate]

@[simp] theorem f32IsInf_negate (v : Word) : f32IsInf (f32Negate v) = f32IsInf v := by
  rw [Bool.eq_iff_iff, f32IsInf_iff, f32IsInf_iff, f32Magnitude_negate]

@[simp] theorem f32IsFinite_negate (v : Word) : f32IsFinite (f32Negate v) = f32IsFinite v := by
  rw [Bool.eq_iff_iff, f32IsFinite_iff, f32IsFinite_iff, f32Magnitude_negate]

theorem f32Value_pack (hm : m < 2 ^ 31) :
    f32Value (f32Pack negative m) = if negative then -(magnitudeUnits m : Int) else magnitudeUnits m := by
  rw [f32Value, f32Units_eq, f32Negative_pack hm, f32Magnitude_pack hm]

end Format

/-! #### Places: a magnitude pattern is an exponent and a significand -/

/-- The pattern of `q` units of 2^shift, for a significand that fits the place: a significand of 2^24 is the next binade's
first pattern. -/
theorem magnitudeUnits_place {shift q : Nat} (hq : q ≤ 2 ^ 24) (hs : shift = 0 ∨ 2 ^ 23 ≤ q) :
    magnitudeUnits (shift * 2 ^ 23 + q) = q * 2 ^ shift := by
  unfold magnitudeUnits
  rcases Nat.lt_or_ge q (2 ^ 23) with hlt | hge
  · obtain rfl : shift = 0 := by omega
    rw [if_pos (by omega)]
    omega
  · rcases Nat.lt_or_eq_of_le hq with hlt | rfl
    · rw [if_neg (by omega), show (shift * 2 ^ 23 + q) / 2 ^ 23 - 1 = shift by omega,
        show 2 ^ 23 + (shift * 2 ^ 23 + q) % 2 ^ 23 = q by omega]
    · rw [if_neg (by omega), show (shift * 2 ^ 23 + 2 ^ 24) / 2 ^ 23 - 1 = shift + 1 by omega,
        show (shift * 2 ^ 23 + 2 ^ 24) % 2 ^ 23 = 0 by omega, pow_succ]
      omega

/-- Every magnitude pattern has its place: an exponent and a significand below 2^24. -/
theorem exists_place (m : Nat) : ∃ e q, q < 2 ^ 24 ∧ magnitudeUnits m = q * 2 ^ e := by
  unfold magnitudeUnits
  split
  · exact ⟨0, m % 2 ^ 23, by omega, by rw [pow_zero, mul_one]⟩
  · exact ⟨m / 2 ^ 23 - 1, 2 ^ 23 + m % 2 ^ 23, by omega, rfl⟩

/-- A representable magnitude is a multiple of 2^shift or lies below the binade whose last place is worth 2^shift. -/
theorem magnitudeUnits_multiple_or_lt (m shift : Nat) :
    (∃ j, magnitudeUnits m = j * 2 ^ shift) ∨ (shift ≠ 0 ∧ magnitudeUnits m < 2 ^ 23 * 2 ^ shift) := by
  obtain ⟨e, q, hq, hm⟩ := exists_place m
  rcases Nat.lt_or_ge e shift with hlt | hge
  · right
    have hpow : 2 * 2 ^ e ≤ 2 ^ shift := by rw [← pow_succ']; exact Nat.pow_le_pow_right (by decide) hlt
    have hmul : q * 2 ^ e < 2 ^ 24 * 2 ^ e := Nat.mul_lt_mul_of_pos_right hq (by positivity)
    exact ⟨by omega, by omega⟩
  · left
    exact ⟨q * 2 ^ (e - shift), by rw [hm, mul_assoc, ← pow_add, Nat.sub_add_cancel hge]⟩

theorem magnitudeUnits_eq_zero_iff {m : Nat} : magnitudeUnits m = 0 ↔ m = 0 := by
  unfold magnitudeUnits
  split
  · omega
  · simp; omega

/-! #### Rounding to a whole number of places -/

section Rounding
variable {num den : Nat}

/-- The rounded quotient is within half of the exact one, and even where it is exactly half away. -/
theorem divRoundEven_half (hden : 0 < den) :
    2 * num ≤ (2 * divRoundEven num den + 1) * den ∧ 2 * divRoundEven num den * den ≤ 2 * num + den ∧
    ((2 * num = (2 * divRoundEven num den + 1) * den ∨ 2 * divRoundEven num den * den = 2 * num + den) →
      divRoundEven num den % 2 = 0) := by
  have hdiv := Nat.div_add_mod' num den
  have hmod := Nat.mod_lt num hden
  simp only [divRoundEven]
  generalize num / den = q at *
  generalize num % den = r at *
  split
  · have h1 : (2 * (q + 1) + 1) * den = 2 * (q * den) + 3 * den := by ring
    have h2 : 2 * (q + 1) * den = 2 * (q * den) + 2 * den := by ring
    omega
  · have h1 : (2 * q + 1) * den = 2 * (q * den) + den := by ring
    have h2 : 2 * q * den = 2 * (q * den) := by ring
    omega

/-- No whole number is nearer to the exact quotient than the rounded one, and one as near leaves it even. -/
theorem divRoundEven_nearest (hden : 0 < den) (k : Nat) :
    (((divRoundEven num den * den : Nat) : Int) - num).natAbs ≤ (((k * den : Nat) : Int) - num).natAbs ∧
    ((((divRoundEven num den * den : Nat) : Int) - num).natAbs = (((k * den : Nat) : Int) - num).natAbs →
      k ≠ divRoundEven num den → divRoundEven num den % 2 = 0) := by
  obtain ⟨hlo, hhi, heven⟩ := divRoundEven_half (num := num) hden
  generalize divRoundEven num den = q at *
  rw [show (2 * q + 1) * den = 2 * (q * den) + den by ring, show 2 * q * den = 2 * (q * den) by ring] at *
  rcases Nat.lt_trichotomy k q with hlt | rfl | hgt
  · have : k * den + den ≤ q * den := by rw [← Nat.succ_mul]; exact Nat.mul_le_mul_right den hlt
    omega
  · exact ⟨le_rfl, fun _ h => absurd rfl h⟩
  · have : q * den + den ≤ k * den := by rw [← Nat.succ_mul]; exact Nat.mul_le_mul_right den hgt
    omega

/-- The rounded quotient stays below an even number exactly where the exact one is more than a half below it. -/
theorem divRoundEven_lt_iff (hden : 0 < den) {c : Nat} (hc : 0 < c) (heven : c % 2 = 0) :
    divRoundEven num den < c ↔ 2 * num < (2 * c - 1) * den := by
  obtain ⟨hlo, hhi, hq⟩ := divRoundEven_half (num := num) hden
  generalize divRoundEven num den = q at *
  obtain ⟨c, rfl⟩ : ∃ c', c = c' + 1 := ⟨c - 1, by omega⟩
  rw [show 2 * (c + 1) - 1 = 2 * c + 1 by omega, show (2 * c + 1) * den = 2 * (c * den) + den by ring]
  rw [show (2 * q + 1) * den = 2 * (q * den) + den by ring, show 2 * q * den = 2 * (q * den) by ring] at *
  constructor
  · intro h
    rcases Nat.lt_or_eq_of_le (Nat.le_of_lt_succ h) with hlt | rfl
    · have : q * den + den ≤ c * den := by rw [← Nat.succ_mul]; exact Nat.mul_le_mul_right den hlt
      omega
    · omega
  · intro h
    by_contra hcon
    have : c * den + den ≤ q * den := by rw [← Nat.succ_mul]; exact Nat.mul_le_mul_right den (by omega)
    omega

theorem le_divRoundEven {c : Nat} (hden : 0 < den) (h : c * den ≤ num) : c ≤ divRoundEven num den := by
  have hc : c ≤ num / den := (Nat.le_div_iff_mul_le hden).2 h
  simp only [divRoundEven]
  split <;> omega

theorem divRoundEven_le {c : Nat} (hden : 0 < den) (h : num < c * den) : divRoundEven num den ≤ c := by
  have hc : num / den < c := (Nat.div_lt_iff_lt_mul hden).2 h
  simp only [divRoundEven]
  split <;> omega

end Rounding

/-! #### roundUnits: the nearest magnitude pattern -/

/-- How many units of 2^-149, as a power of two, the last place of the rounded quotient is worth. -/
def roundShift (num den : Nat) : Nat := Nat.log2 (num / den) - 23

section RoundUnits
variable {num den : Nat}

/-- roundUnits packs its place and stops at the pattern of an infinity. -/
theorem roundUnits_eq (num den : Nat) :
    roundUnits num den =
      min (roundShift num den * 2 ^ 23 + divRoundEven num (den * 2 ^ roundShift num den)) f32InfMagnitude := rfl

theorem roundUnits_le (num den : Nat) : roundUnits num den ≤ f32InfMagnitude := min_le_right _ _

theorem roundUnits_lt (num den : Nat) : roundUnits num den < 2 ^ 31 := (roundUnits_le num den).trans_lt (by decide)

@[simp] theorem roundUnits_zero (den : Nat) : roundUnits 0 den = 0 := by
  simp [roundUnits, divRoundEven]

/-- The exact quotient is below 2^24 places, and at least 2^23 of them where a place is worth more than one unit. -/
theorem roundShift_bounds (hden : 0 < den) :
    num < 2 ^ 24 * (den * 2 ^ roundShift num den) ∧
    (roundShift num den = 0 ∨ 2 ^ 23 * (den * 2 ^ roundShift num den) ≤ num) := by
  have hscale (k : Nat) : 2 ^ k * (den * 2 ^ roundShift num den) = 2 ^ (k + roundShift num den) * den := by
    rw [pow_add]; ring
  rw [hscale, hscale]
  constructor
  · rw [← Nat.div_lt_iff_lt_mul hden]
    exact Nat.lt_log2_self.trans_le (Nat.pow_le_pow_right (by decide) (by unfold roundShift; omega))
  · rcases Nat.eq_zero_or_pos (roundShift num den) with hzero | hpos
    · exact .inl hzero
    · have hlog : 23 + roundShift num den = Nat.log2 (num / den) := by unfold roundShift at *; omega
      have hne : num / den ≠ 0 := by
        intro h
        simp [roundShift, h] at hpos
      rw [hlog, ← Nat.le_div_iff_mul_le hden]
      exact .inr (Nat.log2_self_le hne)

theorem placeWorth_pos (hden : 0 < den) : 0 < den * 2 ^ roundShift num den := Nat.mul_pos hden (by positivity)

/-- The rounded significand fits its place. -/
theorem roundedSignificand_bounds (hden : 0 < den) :
    divRoundEven num (den * 2 ^ roundShift num den) ≤ 2 ^ 24 ∧
    (roundShift num den = 0 ∨ 2 ^ 23 ≤ divRoundEven num (den * 2 ^ roundShift num den)) := by
  obtain ⟨hlt, hge⟩ := roundShift_bounds (num := num) hden
  have hpos := placeWorth_pos (num := num) hden
  exact ⟨divRoundEven_le hpos hlt, hge.imp_right (le_divRoundEven hpos)⟩

/-- No magnitude is nearer to the exact quotient than the rounded one, and one as near leaves the pattern even. -/
theorem roundUnits_nearest (hden : 0 < den) (hfin : roundUnits num den < f32InfMagnitude) (m : Nat) :
    (((magnitudeUnits (roundUnits num den) * den : Nat) : Int) - num).natAbs ≤
      (((magnitudeUnits m * den : Nat) : Int) - num).natAbs ∧
    ((((magnitudeUnits (roundUnits num den) * den : Nat) : Int) - num).natAbs =
        (((magnitudeUnits m * den : Nat) : Int) - num).natAbs →
      magnitudeUnits m ≠ magnitudeUnits (roundUnits num den) → roundUnits num den % 2 = 0) := by
  have hpos := placeWorth_pos (num := num) hden
  obtain ⟨hq, hs⟩ := roundedSignificand_bounds (num := num) hden
  obtain ⟨-, hge⟩ := roundShift_bounds (num := num) hden
  have hpack : roundUnits num den =
      roundShift num den * 2 ^ 23 + divRoundEven num (den * 2 ^ roundShift num den) := by
    rw [roundUnits_eq] at hfin ⊢
    exact min_eq_left (by omega)
  have hnear := divRoundEven_nearest (num := num) hpos
  rw [hpack, magnitudeUnits_place hq hs]
  generalize divRoundEven num (den * 2 ^ roundShift num den) = q at *
  generalize roundShift num den = shift at *
  have hworth (k : Nat) : k * 2 ^ shift * den = k * (den * 2 ^ shift) := by ring
  rw [hworth]
  rcases magnitudeUnits_multiple_or_lt m shift with ⟨j, hj⟩ | ⟨hne, hlt⟩
  · rw [hj, hworth]
    refine ⟨(hnear j).1, fun heq hne => ?_⟩
    have heven := (hnear j).2 heq fun h => hne (by rw [h])
    omega
  · have hfar : magnitudeUnits m * den < 2 ^ 23 * (den * 2 ^ shift) := by
      rw [← hworth]
      exact Nat.mul_lt_mul_of_pos_right hlt hden
    have hbinade := (hnear (2 ^ 23)).1
    have hbelow := hge.resolve_left hne
    omega

/-- Rounding reaches the pattern of an infinity exactly where the exact quotient is past the largest finite value by half a
unit in its last place or more. -/
theorem roundUnits_lt_iff (hden : 0 < den) :
    roundUnits num den < f32InfMagnitude ↔ 2 * num < (2 ^ 25 - 1) * 2 ^ 253 * den := by
  have hpos := placeWorth_pos (num := num) hden
  obtain ⟨hlt, hge⟩ := roundShift_bounds (num := num) hden
  obtain ⟨hq, hs⟩ := roundedSignificand_bounds (num := num) hden
  have hlast : divRoundEven num (den * 2 ^ roundShift num den) < 2 ^ 24 ↔
      2 * num < (2 ^ 25 - 1) * (den * 2 ^ roundShift num den) := divRoundEven_lt_iff hpos (by decide) (by decide)
  obtain ⟨top, htop⟩ : ∃ top, den * 2 ^ 253 = top := ⟨_, rfl⟩
  rw [roundUnits_eq, min_lt_iff, or_iff_left (lt_irrefl _), mul_assoc (2 ^ 25 - 1), mul_comm (2 ^ 253), htop,
    f32InfMagnitude]
  generalize divRoundEven num (den * 2 ^ roundShift num den) = q at *
  generalize roundShift num den = shift at *
  rcases Nat.lt_trichotomy shift 253 with hlow | rfl | hhigh
  · have hhalf : 2 * (den * 2 ^ shift) ≤ top := by
      rw [← htop, mul_left_comm, ← pow_succ']
      exact Nat.mul_le_mul_left den (Nat.pow_le_pow_right (by decide) hlow)
    exact iff_of_true (by omega) (by omega)
  · rw [← htop, ← hlast]
    omega
  · have hdouble : 2 * top ≤ den * 2 ^ shift := by
      rw [← htop, mul_left_comm, ← pow_succ']
      exact Nat.mul_le_mul_left den (Nat.pow_le_pow_right (by decide) hhigh)
    exact iff_of_false (by omega) (by omega)

/-- A whole number of units other than 0 does not round to 0. -/
theorem roundUnits_one_pos (hnum : 0 < num) : 0 < roundUnits num 1 := by
  rw [roundUnits_eq, lt_min_iff]
  refine ⟨?_, by decide⟩
  rcases (roundedSignificand_bounds (num := num) one_pos).2 with hzero | hge
  · have hwhole : num ≤ divRoundEven num (1 * 2 ^ roundShift num 1) :=
      le_divRoundEven (by positivity) (by rw [hzero]; omega)
    omega
  · omega

end RoundUnits

/-! #### The signed result of a rounding -/

/-- The exact quotient rounds to a finite value: it is not past the largest one by half a unit in its last place or more. -/
def FitsFloat (num : Int) (den : Nat) : Prop := 2 * num.natAbs < (2 ^ 25 - 1) * 2 ^ 253 * den

/-- `v` is the exact quotient correctly rounded: the nearest finite value, or an infinity of its sign. -/
def RoundsTo (v : Word) (num : Int) (den : Nat) : Prop :=
  (FitsFloat num den → NearestEven v num den) ∧
  (¬ FitsFloat num den → f32IsInf v = true ∧ (f32Negative v = true ↔ num < 0))

section Signed
variable {negative : Bool} {num : Int} {den : Nat}

/-- The parity of a value's pattern is that of its magnitude pattern. -/
theorem getLsbD_zero_pack {m : Nat} (hm : m < 2 ^ 31) (heven : m % 2 = 0) : (f32Pack negative m).getLsbD 0 = false := by
  have hparity : (f32Pack negative m).toNat % 2 = 0 := by
    rw [f32Pack_toNat hm]
    split <;> omega
  rw [BitVec.getLsbD, Nat.testBit_zero, hparity]
  rfl

/-- The distance of two signed values: the distance of their magnitudes, or their sum where the signs differ. -/
theorem natAbs_signed_sub (s t : Bool) (units n den : Nat) :
    ((if s then -(units : Int) else units) * den - (if t then -(n : Int) else n)).natAbs =
      if s = t then (((units * den : Nat) : Int) - n).natAbs else units * den + n := by
  have hmul : (units : Int) * den = (units * den : Nat) := (Int.natCast_mul units den).symm
  rw [ite_mul, neg_mul, hmul]
  cases s <;> cases t <;> simp <;> omega

/-- Nearest among the magnitudes is nearest among the values: a value of the other sign is no nearer than a zero. -/
theorem nearestEven_pack_roundUnits (hden : 0 < den) (hsign : num ≠ 0 → (negative = true ↔ num < 0))
    (hfits : FitsFloat num den) : NearestEven (f32Pack negative (roundUnits num.natAbs den)) num den := by
  have hfin := (roundUnits_lt_iff hden).2 hfits
  have hm := roundUnits_lt num.natAbs den
  refine ⟨by rwa [f32IsFinite_iff, f32Magnitude_pack hm], fun x _ => ?_⟩
  have hnear := roundUnits_nearest hden hfin
  have hbit := getLsbD_zero_pack (negative := negative) hm
  have hnum : num = if negative then -(num.natAbs : Int) else num.natAbs := by
    rcases eq_or_ne num 0 with rfl | hne
    · simp
    · have hs := hsign hne
      split
      · next h => have := hs.1 h; omega
      · next h => have := mt hs.2 h; omega
  rw [f32Value_pack hm, f32Value, f32Units_eq x]
  generalize num.natAbs = n at *
  subst hnum
  rw [natAbs_signed_sub, natAbs_signed_sub, if_pos rfl]
  by_cases hs : f32Negative x = negative
  · obtain ⟨hle, heven⟩ := hnear (f32Magnitude x)
    rw [if_pos hs, hs]
    exact ⟨hle, fun heq hne => hbit (heven heq fun h => hne (by rw [h]))⟩
  · obtain ⟨hle, heven⟩ := hnear 0
    rw [magnitudeUnits_eq_zero_iff.2 rfl] at hle heven
    rw [if_neg hs]
    refine ⟨by omega, fun heq hne => hbit (heven (by omega) fun hzero => hne ?_)⟩
    have hx : magnitudeUnits (f32Magnitude x) = 0 := by
      have : magnitudeUnits (f32Magnitude x) * den = 0 := by omega
      exact (Nat.mul_eq_zero.1 this).resolve_right hden.ne'
    rw [← hzero, hx]
    simp

/-- The exact quotient's magnitude rounded and packed under its sign is the exact quotient correctly rounded. The sign of a
zero quotient is free here. -/
theorem roundsTo_pack_roundUnits (hden : 0 < den) (hsign : num ≠ 0 → (negative = true ↔ num < 0)) :
    RoundsTo (f32Pack negative (roundUnits num.natAbs den)) num den := by
  refine ⟨nearestEven_pack_roundUnits hden hsign, fun hbig => ?_⟩
  have hinf : roundUnits num.natAbs den = f32InfMagnitude :=
    (roundUnits_le _ _).antisymm (not_lt.1 (mt (roundUnits_lt_iff hden).1 hbig))
  have hne : num ≠ 0 := by
    rintro rfl
    exact absurd hinf (by simp)
  rw [f32IsInf_iff, f32Magnitude_pack (roundUnits_lt _ _), f32Negative_pack (roundUnits_lt _ _)]
  exact ⟨hinf, hsign hne⟩

end Signed

/-! #### The operations on finite operands -/

/-- The sign of a sum of finite values: a zero sum is negative only where both terms are (R223). -/
def f32SumNegative (a b : Word) : Bool :=
  if f32Value a + f32Value b = 0 then f32Negative a && f32Negative b else decide (f32Value a + f32Value b < 0)

section Finite
variable {a b : Word} (ha : f32IsFinite a = true) (hb : f32IsFinite b = true)
include ha hb

/-- The sum of finite values is the exact sum, rounded once. -/
theorem f32Sum_of_finite (nan : Word) :
    f32Sum nan a b = f32Pack (f32SumNegative a b) (roundUnits (f32Value a + f32Value b).natAbs 1) := by
  simp only [f32Sum, f32IsNaN_of_finite ha, f32IsNaN_of_finite hb, f32IsInf_of_finite ha, f32IsInf_of_finite hb,
    Bool.or_self, Bool.false_eq_true, if_false, f32SumNegative]
  split
  · next h => rw [h, Int.natAbs_zero, roundUnits_zero]
  · rfl

theorem fsub32_of_finite :
    fsub32 a b = f32Pack (f32SumNegative a (f32Negate b)) (roundUnits (f32Value a - f32Value b).natAbs 1) := by
  rw [fsub32, f32Sum_of_finite ha ((f32IsFinite_negate b).trans hb), f32Value_negate, sub_eq_add_neg]

theorem fmul32_of_finite :
    fmul32 a b = f32Pack (f32Negative a != f32Negative b) (roundUnits (f32Value a * f32Value b).natAbs (2 ^ 149)) := by
  simp only [fmul32, f32IsNaN_of_finite ha, f32IsNaN_of_finite hb, f32IsInf_of_finite ha, f32IsInf_of_finite hb,
    Bool.or_self, Bool.false_eq_true, if_false, Int.natAbs_mul, f32Value_natAbs]

theorem fdiv32_of_finite (hne : f32Value b ≠ 0) :
    fdiv32 a b = f32Pack (f32Negative a != f32Negative b)
      (roundUnits ((if f32Value b < 0 then -f32Value a else f32Value a) * 2 ^ 149).natAbs (f32Value b).natAbs) := by
  have hdividend : ((if f32Value b < 0 then -f32Value a else f32Value a) * 2 ^ 149).natAbs = f32Units a * 2 ^ 149 := by
    rw [Int.natAbs_mul, apply_ite Int.natAbs, Int.natAbs_neg, ite_self, f32Value_natAbs]
    rfl
  rw [hdividend, f32Value_natAbs]
  simp only [fdiv32, f32IsNaN_of_finite ha, f32IsNaN_of_finite hb, f32IsInf_of_finite ha, f32IsInf_of_finite hb,
    Bool.or_self, Bool.false_eq_true, if_false, if_neg (mt f32Value_eq_zero_iff.2 hne)]

end Finite

theorem f32SumNegative_iff {a b : Word} (h : f32Value a + f32Value b ≠ 0) :
    f32SumNegative a b = true ↔ f32Value a + f32Value b < 0 := by
  rw [f32SumNegative, if_neg h, decide_eq_true_eq]

/-- The sign rule: the exclusive or of the signs is the sign of a product that is not 0. -/
theorem f32Negative_bne_iff {a b : Word} (h : f32Value a * f32Value b ≠ 0) :
    (f32Negative a != f32Negative b) = true ↔ f32Value a * f32Value b < 0 := by
  obtain ⟨ha, hb⟩ := mul_ne_zero_iff.1 h
  have hpa := f32Value_neg_iff ha
  have hpb := f32Value_neg_iff hb
  rw [mul_neg_iff, bne_iff_ne, ne_eq, Bool.eq_iff_iff, ← hpa, ← hpb]
  omega

/-- Dividing by a value is dividing its magnitude into the dividend under the divisor's sign. -/
theorem f32Dividend_neg_iff {a b : Word} (h : f32Value b ≠ 0) :
    (if f32Value b < 0 then -f32Value a else f32Value a) * 2 ^ 149 < 0 ↔ f32Value a * f32Value b < 0 := by
  rw [mul_neg_iff, mul_neg_iff]
  split <;> omega

/-! #### Correct rounding of the four operations (R221, R223 to R226) -/

section Finite
variable {a b : Word} (ha : f32IsFinite a = true) (hb : f32IsFinite b = true)
include ha hb

theorem fadd32_roundsTo : RoundsTo (fadd32 a b) (f32Value a + f32Value b) 1 := by
  rw [fadd32, f32Sum_of_finite ha hb]
  exact roundsTo_pack_roundUnits one_pos f32SumNegative_iff

theorem fsub32_roundsTo : RoundsTo (fsub32 a b) (f32Value a - f32Value b) 1 := by
  rw [fsub32_of_finite ha hb]
  refine roundsTo_pack_roundUnits one_pos ?_
  rw [sub_eq_add_neg, ← f32Value_negate]
  exact f32SumNegative_iff

theorem fmul32_roundsTo : RoundsTo (fmul32 a b) (f32Value a * f32Value b) (2 ^ 149) := by
  rw [fmul32_of_finite ha hb]
  exact roundsTo_pack_roundUnits (by positivity) f32Negative_bne_iff

theorem fdiv32_roundsTo (hne : f32Value b ≠ 0) :
    RoundsTo (fdiv32 a b) ((if f32Value b < 0 then -f32Value a else f32Value a) * 2 ^ 149) (f32Value b).natAbs := by
  rw [fdiv32_of_finite ha hb hne]
  refine roundsTo_pack_roundUnits (Int.natAbs_pos.2 hne) fun hnum => ?_
  have ha0 : f32Value a ≠ 0 := by
    intro h
    simp [h] at hnum
  rw [f32Dividend_neg_iff hne, f32Negative_bne_iff (mul_ne_zero ha0 hne)]

/-- An exact zero sum is packed under the sign of a zero sum (R223). -/
theorem f32Sum_of_zero (nan : Word) (h : f32Value a + f32Value b = 0) :
    f32Sum nan a b = f32Pack (f32Negative a && f32Negative b) 0 := by
  rw [f32Sum_of_finite ha hb, f32SumNegative, if_pos h, h, Int.natAbs_zero, roundUnits_zero]

end Finite

/-- A zero under the sign of two terms that are both negative. -/
theorem f32Pack_and_zero (s t : Bool) :
    f32Pack (s && t) 0 = if s = true ∧ t = true then 0x80000000#32 else 0x00000000#32 := by
  cases s <;> cases t <;> rfl

/-- Settles O43: each operation rounds its exact result once, under the sign of the result or of the zero. -/
theorem floatResultsAreCorrectlyRounded : Obligations.FloatResultsAreCorrectlyRounded := by
  intro a b ha hb
  have hb' : f32IsFinite (f32Negate b) = true := (f32IsFinite_negate b).trans hb
  refine ⟨fadd32_roundsTo ha hb, fsub32_roundsTo ha hb, fmul32_roundsTo ha hb, fdiv32_roundsTo ha hb, fun h => ?addZero,
    fun h => ?subZero, ?mulSign, fun h => ?divSign⟩
  case addZero => rw [fadd32, f32Sum_of_zero ha hb _ h, f32Pack_and_zero]
  case subZero =>
    rw [fsub32, f32Sum_of_zero ha hb' _ (by rw [f32Value_negate]; omega), f32Pack_and_zero, f32Negative_negate]
    simp only [Bool.not_eq_true']
  case mulSign => rw [fmul32_of_finite ha hb, f32Negative_pack (roundUnits_lt _ _)]
  case divSign => rw [fdiv32_of_finite ha hb h, f32Negative_pack (roundUnits_lt _ _)]

/-! #### The order of finite values (R227) -/

/-- The rounded difference of finite values is no NaN and has the sign of the exact one: no difference of them is so small
that it rounds to 0. -/
theorem fsub32_sign {a b : Word} (ha : f32IsFinite a = true) (hb : f32IsFinite b = true) :
    f32IsNaN (fsub32 a b) = false ∧ (f32Value (fsub32 a b) = 0 ↔ f32Value a = f32Value b) ∧
    (f32Value (fsub32 a b) < 0 ↔ f32Value a < f32Value b) := by
  have hm := roundUnits_lt (f32Value a - f32Value b).natAbs 1
  have hle := roundUnits_le (f32Value a - f32Value b).natAbs 1
  rw [fsub32_of_finite ha hb, ← Bool.not_eq_true, f32IsNaN_iff, f32Magnitude_pack hm, f32Value_pack hm]
  refine ⟨hle.not_gt, ?_⟩
  rcases eq_or_ne (f32Value a) (f32Value b) with heq | hne
  · have hunits : magnitudeUnits 0 = 0 := magnitudeUnits_eq_zero_iff.2 rfl
    simp [heq, hunits]
  · have hpos : 0 < magnitudeUnits (roundUnits (f32Value a - f32Value b).natAbs 1) :=
      Nat.pos_of_ne_zero (mt magnitudeUnits_eq_zero_iff.1 (roundUnits_one_pos (by omega)).ne')
    have hsign : f32SumNegative a (f32Negate b) = true ↔ f32Value a < f32Value b := by
      rw [f32SumNegative_iff (by rw [f32Value_negate]; omega), f32Value_negate]
      omega
    split
    · next h => have := hsign.1 h; omega
    · next h => have := mt hsign.2 h; omega

/-- Settles O40: CMP writes the sign of the rounded difference, which is the sign of the exact one. -/
theorem floatCompareOrdersFiniteValues : Obligations.FloatCompareOrdersFiniteValues := by
  intro s s1 s2 a b hx hy ha hb
  obtain ⟨hnan, hzero, hneg⟩ := fsub32_sign ha hb
  have hflags : cmpFlags .float a b =
      if f32Value a = f32Value b then 0x01 else if f32Value a < f32Value b then 0x02 else 0x04 := by
    simp only [cmpFlags, cmpFloatFlags, hnan, Bool.false_eq_true, if_false, signFlags, hzero, hneg]
  rw [exec_cmp_of_ok hx hy, hflags]
  rfl

/-! #### MOVC (R229) -/

/-- An i32 in units of 2^-149 is far inside the finite values. -/
theorem fitsFloat_of_word (x : Word) : FitsFloat (x.toInt * 2 ^ 149) 1 := by
  have hlt := BitVec.toInt_lt (x := x)
  have hle := BitVec.le_toInt (x := x)
  have habs : x.toInt.natAbs ≤ 2 ^ 31 := by omega
  rw [FitsFloat, Int.natAbs_mul, show ((2 : Int) ^ 149).natAbs = 2 ^ 149 from rfl]
  omega

/-- i2f is the integer correctly rounded. -/
theorem i2f_nearestEven (x : Word) : NearestEven (i2f x) (x.toInt * 2 ^ 149) 1 := by
  have hunits : x.toInt.natAbs * 2 ^ 149 = (x.toInt * 2 ^ 149).natAbs := by
    rw [Int.natAbs_mul]
    rfl
  rw [i2f, hunits]
  refine nearestEven_pack_roundUnits one_pos (fun _ => ?_) (fitsFloat_of_word x)
  rw [decide_eq_true_eq]
  omega

/-- f2i of a finite value whose truncation fits an i32 is that integer. -/
theorem f2i_toInt {x : Word} (hx : f32IsFinite x = true) (hlo : -2 ^ 31 ≤ (f32Value x).tdiv (2 ^ 149))
    (hhi : (f32Value x).tdiv (2 ^ 149) ≤ 2 ^ 31 - 1) : (f2i x).toInt = (f32Value x).tdiv (2 ^ 149) := by
  rw [f2i, hx, decide_eq_true hlo, decide_eq_true hhi]
  exact BitVec.toInt_ofInt_eq_self (by decide) hlo (by omega)

/-- f2i of any other value is the free value. -/
theorem f2i_invalid {x : Word} (h : f32IsFinite x = false ∨ (f32Value x).tdiv (2 ^ 149) < -2 ^ 31 ∨
    2 ^ 31 - 1 < (f32Value x).tdiv (2 ^ 149)) : f2i x = Config.f2iInvalid x := by
  refine if_neg ?_
  rw [Bool.and_eq_true, Bool.and_eq_true, decide_eq_true_eq, decide_eq_true_eq]
  rintro ⟨⟨hfin, hlo⟩, hhi⟩
  rcases h with h | h | h
  · simp [hfin] at h
  · omega
  · omega

/-- MOVC with registers of the two banks writes the converted value. -/
theorem exec_movc_of_lt {s : State} {b : Bank} {d i : Byte} (hd : d.toNat < b.scalars) (hi : i.toNat < b.other.scalars) :
    exec (.movc b d i) s =
      .next (s.writeScalar b ⟨d.toNat, hd⟩ (convertTo b (s.readScalar b.other ⟨i.toNat, hi⟩))) := by
  show execMovc b d i s = _
  simp [execMovc, scalarIndex_of_lt hd, scalarIndex_of_lt hi]

/-- Settles O42: both directions write the converted value, which is the rounded or the truncated one. -/
theorem movcFollowsItsRule : Obligations.MovcFollowsItsRule := by
  refine ⟨Opcode.movc.encodedAs_byte, fun s d i hd hi => ?toFloat, fun s d i hd hi => ?toInt, fun s b d i hbad => ?badField⟩
  case toFloat => exact ⟨_, i2f_nearestEven _, exec_movc_of_lt (b := .float) hd hi⟩
  case toInt =>
    have hexec : exec (.movc .int d i) s = .next (s.writeR ⟨d.toNat, hd⟩ (f2i (s.readF ⟨i.toNat, hi⟩))) :=
      exec_movc_of_lt (b := .int) hd hi
    refine ⟨fun hfin hlo hhi => ⟨_, f2i_toInt hfin hlo hhi, hexec⟩, fun h => ?_⟩
    rw [hexec, f2i_invalid h]
    rfl
  case badField =>
    refine exec_of_illFormed s ?_
    rcases hbad with h | h
    · simp [Instr.wellFormed, scalarOk_eq_false h]
    · simp [Instr.wellFormed, scalarOk_eq_false h]

/-! #### Special values (R221, R223 to R226) -/

/-- NAN_RESULT has an exponent of all ones and a fraction that is not 0. -/
theorem f32IsNaN_nanResult (op : FpOp) (a b : Word) : f32IsNaN (Config.nanResult op a b) = true := by
  have hpred := (Config.nanFractionPred op a b).isLt
  have hfraction : (BitVec.ofNat 23 ((Config.nanFractionPred op a b).val + 1)).toNat =
      (Config.nanFractionPred op a b).val + 1 := by
    rw [BitVec.toNat_ofNat, Nat.mod_eq_of_lt (by omega)]
  rw [f32IsNaN_iff, f32Magnitude, Config.nanResult, BitVec.toNat_append, BitVec.toNat_append,
    ← Nat.shiftLeft_add_eq_or_of_lt (BitVec.isLt _), ← Nat.shiftLeft_add_eq_or_of_lt (BitVec.isLt _), hfraction,
    show (0xFF#8).toNat = 255 from rfl]
  simp only [Nat.shiftLeft_eq, f32InfMagnitude]
  omega

/-- The infinity of the sign rule. -/
theorem f32Pack_bne_inf (s t : Bool) :
    f32Pack (s != t) f32InfMagnitude = if s = t then 0x7F800000 else 0xFF800000 := by
  cases s <;> cases t <;> rfl

/-- The zero of the sign rule. -/
theorem f32Pack_bne_zero (s t : Bool) : f32Pack (s != t) 0 = if s = t then 0x00000000 else 0x80000000 := by
  cases s <;> cases t <;> rfl

section Special
variable {a b : Word}

/-- A NaN operand makes the result of every operation NAN_RESULT. -/
theorem floatOps_of_nan (h : f32IsNaN a = true ∨ f32IsNaN b = true) :
    fadd32 a b = Config.nanResult .add a b ∧ fsub32 a b = Config.nanResult .sub a b ∧
    fmul32 a b = Config.nanResult .mul a b ∧ fdiv32 a b = Config.nanResult .div a b := by
  have hor : (f32IsNaN a || f32IsNaN b) = true := Bool.or_eq_true_iff.2 h
  simp only [fadd32, fsub32, fmul32, fdiv32, f32Sum, f32IsNaN_negate, hor, if_true, and_self]

/-- The sum of two infinities is the infinity, or a NaN where their signs differ. -/
theorem f32Sum_of_inf_inf (ha : f32IsInf a = true) (hb : f32IsInf b = true) (nan : Word) :
    f32Sum nan a b = if f32Negative a = f32Negative b then a else nan := by
  simp only [f32Sum, f32IsNaN_of_inf ha, f32IsNaN_of_inf hb, ha, hb, Bool.or_self, Bool.false_eq_true, if_false, if_true,
    Bool.true_and, bne_iff_ne, ite_not]

theorem f32Sum_of_inf_finite (ha : f32IsInf a = true) (hb : f32IsFinite b = true) (nan : Word) :
    f32Sum nan a b = a := by
  simp only [f32Sum, f32IsNaN_of_inf ha, f32IsNaN_of_finite hb, ha, f32IsInf_of_finite hb, Bool.or_self,
    Bool.false_eq_true, if_false, if_true, Bool.false_and]

theorem f32Sum_of_finite_inf (ha : f32IsFinite a = true) (hb : f32IsInf b = true) (nan : Word) :
    f32Sum nan a b = b := by
  simp only [f32Sum, f32IsNaN_of_finite ha, f32IsNaN_of_inf hb, f32IsInf_of_finite ha, hb, Bool.or_self,
    Bool.false_eq_true, if_false, if_true]

/-- A product with an infinite operand: a NaN where the other is a zero, the infinity of the sign rule otherwise. -/
theorem fmul32_of_inf (hna : f32IsNaN a = false) (hnb : f32IsNaN b = false) (h : (f32IsInf a || f32IsInf b) = true) :
    fmul32 a b =
      if (f32IsFinite a = true ∧ f32Value a = 0) ∨ (f32IsFinite b = true ∧ f32Value b = 0) then Config.nanResult .mul a b
      else if f32Negative a = f32Negative b then 0x7F800000 else 0xFF800000 := by
  simp only [fmul32, hna, hnb, h, Bool.or_self, Bool.false_eq_true, if_false, if_true, f32Pack_bne_inf, Bool.or_eq_true,
    Bool.and_eq_true, beq_iff_eq, f32Value_eq_zero_iff]

/-- Two infinite operands. -/
theorem floatOps_of_inf_inf (ha : f32IsInf a = true) (hb : f32IsInf b = true) :
    (f32Negative a = f32Negative b → fadd32 a b = a ∧ fsub32 a b = Config.nanResult .sub a b) ∧
    (f32Negative a ≠ f32Negative b → fadd32 a b = Config.nanResult .add a b ∧ fsub32 a b = a) ∧
    fmul32 a b = (if f32Negative a = f32Negative b then 0x7F800000 else 0xFF800000) ∧
    fdiv32 a b = Config.nanResult .div a b := by
  have hb' : f32IsInf (f32Negate b) = true := (f32IsInf_negate b).trans hb
  have hna := f32IsNaN_of_inf ha
  have hnb := f32IsNaN_of_inf hb
  rw [fadd32, fsub32, f32Sum_of_inf_inf ha hb, f32Sum_of_inf_inf ha hb', f32Negative_negate]
  refine ⟨fun hs => ?same, fun hs => ?differ, ?mul, ?div⟩
  case same => exact ⟨if_pos hs, if_neg (by simp [hs])⟩
  case differ => exact ⟨if_neg hs, if_pos (Bool.eq_not_of_ne hs)⟩
  case mul =>
    rw [fmul32_of_inf hna hnb (by simp [ha]), if_neg (by simp [f32IsFinite_of_inf ha, f32IsFinite_of_inf hb])]
  case div => simp only [fdiv32, hna, hnb, ha, hb, Bool.or_self, Bool.false_eq_true, if_false, if_true]

/-- An infinity and a finite value. -/
theorem floatOps_of_inf_finite (ha : f32IsInf a = true) (hb : f32IsFinite b = true) :
    fadd32 a b = a ∧ fsub32 a b = a ∧
    fdiv32 a b = (if f32Negative a = f32Negative b then 0x7F800000 else 0xFF800000) ∧
    (f32Value b = 0 → fmul32 a b = Config.nanResult .mul a b) ∧
    (f32Value b ≠ 0 → fmul32 a b = if f32Negative a = f32Negative b then 0x7F800000 else 0xFF800000) := by
  have hb' : f32IsFinite (f32Negate b) = true := (f32IsFinite_negate b).trans hb
  have hna := f32IsNaN_of_inf ha
  have hnb := f32IsNaN_of_finite hb
  rw [fmul32_of_inf hna hnb (by simp [ha])]
  refine ⟨f32Sum_of_inf_finite ha hb _, f32Sum_of_inf_finite ha hb' _, ?div, fun h => if_pos (.inr ⟨hb, h⟩),
    fun h => if_neg (by simp [f32IsFinite_of_inf ha, h])⟩
  case div =>
    simp only [fdiv32, hna, hnb, ha, f32IsInf_of_finite hb, Bool.or_self, Bool.false_eq_true, if_false, if_true,
      f32Pack_bne_inf]

/-- A finite value and an infinity. -/
theorem floatOps_of_finite_inf (ha : f32IsFinite a = true) (hb : f32IsInf b = true) :
    fadd32 a b = b ∧ fsub32 a b = b ^^^ 0x80000000#32 ∧
    fdiv32 a b = (if f32Negative a = f32Negative b then 0x00000000 else 0x80000000) ∧
    (f32Value a = 0 → fmul32 a b = Config.nanResult .mul a b) ∧
    (f32Value a ≠ 0 → fmul32 a b = if f32Negative a = f32Negative b then 0x7F800000 else 0xFF800000) := by
  have hb' : f32IsInf (f32Negate b) = true := (f32IsInf_negate b).trans hb
  have hna := f32IsNaN_of_finite ha
  have hnb := f32IsNaN_of_inf hb
  rw [fmul32_of_inf hna hnb (by simp [hb])]
  refine ⟨f32Sum_of_finite_inf ha hb _, f32Sum_of_finite_inf ha hb' _, ?div, fun h => if_pos (.inl ⟨ha, h⟩),
    fun h => if_neg (by simp [f32IsFinite_of_inf hb, h])⟩
  case div =>
    simp only [fdiv32, hna, hnb, f32IsInf_of_finite ha, hb, Bool.or_self, Bool.false_eq_true, if_false, if_true,
      f32Pack_bne_zero]

/-- A finite value over a zero. -/
theorem fdiv32_of_zero (ha : f32IsFinite a = true) (hb : f32IsFinite b = true) (hzero : f32Value b = 0) :
    fdiv32 a b = if f32Value a = 0 then Config.nanResult .div a b
      else if f32Negative a = f32Negative b then 0x7F800000 else 0xFF800000 := by
  simp only [fdiv32, f32IsNaN_of_finite ha, f32IsNaN_of_finite hb, f32IsInf_of_finite ha, f32IsInf_of_finite hb,
    Bool.or_self, Bool.false_eq_true, if_false, f32Value_eq_zero_iff.1 hzero, if_true, f32Pack_bne_inf,
    f32Value_eq_zero_iff]

/-- A finite value less itself is +0.0: its two terms have different signs (R224). -/
theorem fsub32_self (ha : f32IsFinite a = true) : fsub32 a a = 0x00000000#32 := by
  rw [fsub32, f32Sum_of_zero ha ((f32IsFinite_negate a).trans ha) _ (by rw [f32Value_negate]; omega),
    f32Negative_negate, Bool.and_not_self]
  rfl

end Special

/-- The integer 0 converts to +0.0. -/
theorem i2f_zero : i2f 0 = 0x00000000#32 := by decide

/-- Settles O60: each class of operands has its own rule above. -/
theorem floatSpecialValuesAndZeroSigns : Obligations.FloatSpecialValuesAndZeroSigns := by
  refine ⟨f32IsNaN_nanResult, fun a b => ⟨floatOps_of_nan, floatOps_of_inf_inf, floatOps_of_inf_finite,
    floatOps_of_finite_inf, fun ha hb hzero => ?divZero⟩, fun x => fsub32_self, fun s d i hd hi h => ?movc⟩
  case divZero =>
    rw [fdiv32_of_zero ha hb hzero]
    exact ⟨fun h => if_pos h, fun h => if_neg h⟩
  case movc =>
    have hexec : exec (.movc .float d i) s = .next (s.writeF ⟨d.toNat, hd⟩ (i2f (s.readR ⟨i.toNat, hi⟩))) :=
      exec_movc_of_lt (b := .float) hd hi
    rw [hexec, h, i2f_zero]
    rfl

end Sys2Proof.Machine

/-! ### Loads and stores (43_memory_ops.md R260 to R262) -/

namespace Sys2Proof.Machine

/-! #### The address of a load or store (R260; 20_memory.md R81) -/

section Address
variable {s : State} {x : Src1}

/-- The address is the i32 that the operand reads. -/
theorem State.src1_of_addressOf {a : Int} (h : s.addressOf x = some a) : ∃ v, s.src1 .int x = .ok v ∧ v.toInt = a := by
  cases x with
  | reg i =>
    by_cases hi : i.toNat < 24
    · exact ⟨_, s.src1_reg (b := .int) hi, by simpa [State.addressOf, hi] using h⟩
    · simp [State.addressOf, hi] at h
  | imm v => exact ⟨v, rfl, Option.some.inj h⟩

/-- There is no address exactly where the operand names no register. -/
theorem State.addressOf_eq_none_iff : s.addressOf x = none ↔ x.ok .int = false := by
  cases x with
  | reg i => simp [State.addressOf, Src1.ok, scalarOk, Bank.scalars]
  | imm v => simp [State.addressOf, Src1.ok]

/-- An access that lies in data memory starts at its address. -/
theorem State.effAddr_of_addressOf {len a : Nat} (h : s.addressOf x = some (a : Int)) (ha : a + len ≤ 65536) :
    s.effAddr len x = .ok a := by
  obtain ⟨v, hv, hva⟩ := State.src1_of_addressOf h
  rw [State.effAddr_of_ok hv (by omega) (by omega), hva, Int.toNat_natCast]

/-- An access with a cell outside data memory is MEM_ADDRESS. -/
theorem State.effAddr_of_addressOf_outside {len : Nat} {a : Int} (h : s.addressOf x = some a)
    (ha : ¬ (0 ≤ a ∧ a + len ≤ 65536)) : s.effAddr len x = .error .memAddress := by
  obtain ⟨v, hv, rfl⟩ := State.src1_of_addressOf h
  exact State.effAddr_of_bad hv ha

/-- The two register fields of a scalar access, one of them outside its bank. -/
theorem access_fields_eq_false {b : Bank} {d : Byte} (h : ¬ d.toNat < b.scalars ∨ s.addressOf x = none) :
    (scalarOk b d && x.ok .int) = false := by
  rcases h with h | h
  · simp [scalarOk_eq_false h]
  · simp [State.addressOf_eq_none_iff.1 h]

end Address

/-! #### LD (R261) -/

/-- LD with a register of the bank and an address that fails its check ends in the address's error. -/
theorem exec_ld_of_error {s : State} {b : Bank} {d : Byte} {x : Src1} {c : Cause} (hd : d.toNat < b.scalars)
    (hx : s.effAddr 1 x = .error c) : exec (.ld b d x) s = .next (s.raise c) := by
  show execLd b d x s = _
  simp [execLd, scalarIndex_of_lt hd, hx]

/-- Settles O44: the field checks come first, then the address's, and the load writes its one register. -/
theorem ldFollowsItsRule : Obligations.LdFollowsItsRule := by
  refine ⟨Opcode.ld.encodedAs_byte, fun s d x => ⟨fun b hbad => ?badField, fun b a hd hx ha => ?badAddress,
    fun a hd hx ha => ?int, fun a hd hx ha => ?float⟩⟩
  case badField => exact exec_of_illFormed s (access_fields_eq_false hbad)
  case badAddress => exact exec_ld_of_error hd (State.effAddr_of_addressOf_outside hx (by omega))
  case int => exact exec_ld_of_ok (b := .int) (k := ⟨d.toNat, hd⟩) rfl (State.effAddr_of_addressOf hx ha)
  case float => exact exec_ld_of_ok (b := .float) (k := ⟨d.toNat, hd⟩) rfl (State.effAddr_of_addressOf hx ha)

/-! #### ST (R262) -/

/-- ST with a register of the bank and an address that fails its check ends in the address's error. -/
theorem exec_st_of_error {s : State} {b : Bank} {d : Byte} {x : Src1} {c : Cause} (hd : d.toNat < b.scalars)
    (hx : s.effAddr 1 x = .error c) : exec (.st b d x) s = .next (s.raise c) := by
  show execSt b d x s = _
  simp [execSt, scalarIndex_of_lt hd, hx]

/-- ST whose checks pass leaves in its cell what the read port of the register gives, and every other cell and the rest of
the state as they were. -/
theorem exec_st_stores {s : State} {b : Bank} {d : Byte} {x : Src1} {a : Nat} (hd : d.toNat < b.scalars)
    (hx : s.addressOf x = some (a : Int)) (ha : a < 65536) :
    ∃ t, exec (.st b d x) s = .next t ∧ t = { s with mem := t.mem } ∧
      ∀ c, t.readMem c = if c = a then s.readScalar b ⟨d.toNat, hd⟩ else s.readMem c :=
  ⟨_, exec_st_of_ok rfl (State.effAddr_of_addressOf hx ha), rfl, fun c => s.readMem_writeMem a c _⟩

/-- Settles O45: the field checks come first, then the address's, and in either bank the store writes its one cell. -/
theorem stFollowsItsRule : Obligations.StFollowsItsRule := by
  refine ⟨Opcode.st.encodedAs_byte, fun s d x => ⟨fun b hbad => ?badField, fun b a hd hx ha => ?badAddress,
    fun a hd hx ha => ?int, fun a hd hx ha => ?float⟩⟩
  case badField => exact exec_of_illFormed s (access_fields_eq_false hbad)
  case badAddress => exact exec_st_of_error hd (State.effAddr_of_addressOf_outside hx (by omega))
  case int => exact exec_st_stores (b := .int) hd hx ha
  case float => exact exec_st_stores (b := .float) hd hx ha

end Sys2Proof.Machine

/-! ### Frontiers (44_frontier.md R280 to R292) -/

namespace Sys2Proof.Machine

/-! #### The window of queued slots (R280) -/

/-- The queue a pop leaves (R283). -/
def Frontier.dropOldest (q : Frontier) : Frontier := { q with front := q.front + 1 }

section Contents
variable {q : Frontier}

/-- A pop that passes its checks gives the oldest value and drops it. -/
theorem Frontier.pop_of_nonempty (hk : q.kind = .queue) (hne : q.size ≠ 0) : q.pop = .ok (q.oldest, q.dropOldest) :=
  Frontier.pop_eq_ok.2 ⟨hk, hne, rfl⟩

theorem Frontier.size_eq_zero_iff (q : Frontier) : q.size = 0 ↔ q.front = q.back :=
  q.isEmpty_iff_size.symm.trans beq_iff_eq

theorem Frontier.contents_length (q : Frontier) : q.contents.length = q.size := by simp [Frontier.contents]

/-- A ring buffer is empty exactly when its contents are. -/
theorem Frontier.isEmpty_iff_contents (q : Frontier) : q.isEmpty = true ↔ q.contents = [] := by
  rw [q.isEmpty_iff_size, ← q.contents_length, List.length_eq_zero_iff]

theorem Frontier.contents_eq_nil (hempty : q.size = 0) : q.contents = [] :=
  List.length_eq_zero_iff.1 (q.contents_length.trans hempty)

theorem Frontier.size_enqueue (hroom : q.size < 1024) (x : Word) : (q.enqueue x).size = q.size + 1 := by
  simp only [Frontier.size, Frontier.enqueue_back, Frontier.enqueue_front] at hroom ⊢
  bv_omega

theorem Frontier.size_eq_dropOldest_succ (hne : q.size ≠ 0) : q.size = q.dropOldest.size + 1 := by
  simp only [Frontier.size, Frontier.dropOldest] at hne ⊢
  bv_omega

/-- The write position lies outside the window of queued slots of a ring buffer with room: counters less than 1024 apart
name different slots. -/
theorem Frontier.slotIndex_ne_back {k : Nat} (hroom : q.size < 1024) (hk : k < q.size) :
    Frontier.slotIndex (q.front + BitVec.ofNat 64 k) ≠ Frontier.slotIndex q.back := by
  simp only [Frontier.size, Frontier.slotIndex] at hroom hk ⊢
  bv_omega

/-- The window ends where the write position begins. -/
theorem Frontier.front_add_size (q : Frontier) : q.front + BitVec.ofNat 64 q.size = q.back := by
  rw [Frontier.size, BitVec.ofNat_toNat, BitVec.setWidth_eq, BitVec.add_comm, BitVec.sub_add_cancel]

/-- An enqueue with room appends its value. -/
theorem Frontier.contents_enqueue (hroom : q.size < 1024) (x : Word) : (q.enqueue x).contents = q.contents ++ [x] := by
  have hold : ∀ k ∈ List.range q.size,
      Memory.read (q.enqueue x).slot (Frontier.slotIndex (q.front + BitVec.ofNat 64 k)) =
        Memory.read q.slot (Frontier.slotIndex (q.front + BitVec.ofNat 64 k)) := fun k hk =>
    Memory.read_write_other _ _ _ _ (Frontier.slotIndex_ne_back hroom (List.mem_range.1 hk))
  rw [Frontier.contents, Frontier.size_enqueue hroom, List.range_succ, List.map_append, Frontier.enqueue_front,
    List.map_congr_left hold, List.map_singleton, q.front_add_size, Frontier.enqueue_slot, Memory.read_write_same]
  rfl

/-- The contents of a non-empty ring buffer are its oldest value and what a pop leaves. -/
theorem Frontier.contents_eq_oldest_cons (hne : q.size ≠ 0) : q.contents = q.oldest :: q.dropOldest.contents := by
  have hshift (k : Nat) : q.front + BitVec.ofNat 64 (k + 1) = q.front + 1 + BitVec.ofNat 64 k := by bv_omega
  rw [Frontier.contents, Frontier.size_eq_dropOldest_succ hne, List.range_succ_eq_map, List.map_cons, List.map_map]
  refine congrArg₂ List.cons ?oldest (List.map_congr_left fun k _ => ?rest)
  case oldest => exact congrArg (fun c => Memory.read q.slot (Frontier.slotIndex c)) (BitVec.add_zero _)
  case rest => exact congrArg (fun c => Memory.read q.slot (Frontier.slotIndex c)) (hshift k)

/-- A run of enqueues with room for all of them appends their values in order. -/
theorem Frontier.contents_foldl_enqueue (f : Nat → Word) (l : List Nat) (q : Frontier)
    (hroom : q.size + l.length ≤ 1024) :
    (l.foldl (fun p u => p.enqueue (f u)) q).contents = q.contents ++ l.map f := by
  induction l generalizing q with
  | nil => exact (List.append_nil _).symm
  | cons u l ih =>
    rw [List.length_cons] at hroom
    have hlt : q.size < 1024 := by omega
    rw [List.foldl_cons, ih _ (by rw [Frontier.size_enqueue hlt]; omega), Frontier.contents_enqueue hlt,
      List.append_assoc, List.map_cons, List.singleton_append]

end Contents

/-! #### The instructions over the queue's operations -/

section Exec
variable {s : State} {r : Byte} {c : Cause}

theorem exec_fpush_of_ok {q : Frontier} (hr : r.toNat < 24) (hq : s.nextQ.push (s.readR ⟨r.toNat, hr⟩) = .ok q) :
    exec (.fpush r) s = .next (s.setNextQ q) := by
  show execFpush r s = _
  rw [execFpush, scalarIndex_of_lt (b := .int) hr, ok_bind, hq, ok_bind, conclude_ok]

theorem exec_fpush_of_error (hr : r.toNat < 24) (hq : s.nextQ.push (s.readR ⟨r.toNat, hr⟩) = .error c) :
    exec (.fpush r) s = .next (s.raise c) := by
  show execFpush r s = _
  rw [execFpush, scalarIndex_of_lt (b := .int) hr, ok_bind, hq, error_bind, conclude_error]

theorem exec_fpop_of_ok {p : Word × Frontier} (hr : r.toNat < 24) (hp : s.currentQ.pop = .ok p) :
    exec (.fpop r) s = .next ((s.setCurrentQ p.2).writeR ⟨r.toNat, hr⟩ p.1) := by
  show execFpop r s = _
  rw [execFpop, scalarIndex_of_lt (b := .int) hr, ok_bind, hp, ok_bind, conclude_ok]

theorem exec_fpop_of_error (hr : r.toNat < 24) (hp : s.currentQ.pop = .error c) :
    exec (.fpop r) s = .next (s.raise c) := by
  show execFpop r s = _
  rw [execFpop, scalarIndex_of_lt (b := .int) hr, ok_bind, hp, error_bind, conclude_error]

theorem exec_fempty_of_ok {e : Bool} (he : s.currentQ.testEmpty = .ok e) : exec .fempty s = .next (s.setZ e) := by
  show execFempty s = _
  rw [execFempty, he, ok_bind, conclude_ok]

theorem exec_fempty_of_error (he : s.currentQ.testEmpty = .error c) : exec .fempty s = .next (s.raise c) := by
  show execFempty s = _
  rw [execFempty, he, error_bind, conclude_error]

theorem exec_fswap (s : State) : exec .fswap s = .next s.swapRoles := rfl

theorem exec_ffill_of_ok {q : Frontier} (hq : s.currentQ.fill s.graph.n.toNat = .ok q) :
    exec .ffill s = .next (s.setCurrentQ q) := by
  show execFfill s = _
  rw [execFfill, hq, ok_bind, conclude_ok]

theorem exec_ffill_of_error (hq : s.currentQ.fill s.graph.n.toNat = .error c) : exec .ffill s = .next (s.raise c) := by
  show execFfill s = _
  rw [execFfill, hq, error_bind, conclude_error]

end Exec

/-! #### FPUSH and FPOP (R287, R288) -/

/-- Settles O47: the field's check, then the three ways a push can end. -/
theorem fpushFollowsItsRule : Obligations.FpushFollowsItsRule := by
  refine ⟨Opcode.fpush.encodedAs_byte, fun s r => ⟨fun hr => ?badField, fun hr => ⟨fun hk => ?kind,
    fun hk hfull => ?full, fun hk hroom => ?pushed⟩⟩⟩
  case badField => exact exec_of_illFormed s (scalarOk_eq_false (b := .int) hr)
  case kind => exact exec_fpush_of_error hr (Frontier.push_eq_error.2 (.inl ⟨hk, rfl⟩))
  case full => exact exec_fpush_of_error hr (Frontier.push_eq_error.2 (.inr ⟨hk, hfull, rfl⟩))
  case pushed => exact exec_fpush_of_ok hr (Frontier.push_eq_ok.2 ⟨hk, hroom, rfl⟩)

/-- Settles O48: the field's check, then the three ways a pop can end. -/
theorem fpopFollowsItsRule : Obligations.FpopFollowsItsRule := by
  refine ⟨Opcode.fpop.encodedAs_byte, fun s r => ⟨fun hr => ?badField, fun hr => ⟨fun hk => ?kind,
    fun hk hempty => ?empty, fun hk hne => ?popped⟩⟩⟩
  case badField => exact exec_of_illFormed s (scalarOk_eq_false (b := .int) hr)
  case kind => exact exec_fpop_of_error hr (Frontier.pop_eq_error.2 (.inl ⟨hk, rfl⟩))
  case empty =>
    have hsize := (Frontier.size_eq_zero_iff _).2 hempty
    exact exec_fpop_of_error hr (Frontier.pop_eq_error.2 (.inr ⟨hk, hsize, rfl⟩))
  case popped =>
    have hsize := mt (Frontier.size_eq_zero_iff _).1 hne
    exact exec_fpop_of_ok hr (Frontier.pop_of_nonempty hk hsize)

/-! #### FEMPTY, FSWAP and FFILL (R289, R290, R291) -/

/-- Settles O49: the test's answer is what Z is set from. -/
theorem femptyFollowsItsRule : Obligations.FemptyFollowsItsRule := by
  refine ⟨Opcode.fempty.encodedAs_byte, fun s => ⟨fun hk => ?kind, fun hk hempty => ?empty, fun hk hne => ?nonempty⟩⟩
  case kind => exact exec_fempty_of_error (Frontier.testEmpty_eq_error.2 ⟨hk, rfl⟩)
  case empty => exact exec_fempty_of_ok (e := true) (Frontier.testEmpty_eq_ok.2 ⟨hk, (beq_iff_eq.2 hempty).symm⟩)
  case nonempty =>
    exact exec_fempty_of_ok (e := false) (Frontier.testEmpty_eq_ok.2 ⟨hk, (beq_eq_false_iff_ne.2 hne).symm⟩)

/-- Settles O50: the exchanged roles read the old next as current and the emptied old current as next. -/
theorem fswapFollowsItsRule : Obligations.FswapFollowsItsRule := by
  refine ⟨Opcode.fswap.encodedAs_byte, fun s => ⟨s.swapRoles, exec_fswap s, rfl, rfl, s.currentQ_swapRoles, ?_⟩⟩
  have hnext : s.swapRoles.q[(1 - s.swapRoles.cur).val] = s.currentQ.init s.currentQ.kind := s.nextQ_swapRoles
  rw [hnext]
  exact ⟨rfl, rfl, rfl, (Frontier.isEmpty_iff_contents _).1 rfl⟩

/-- Settles O51: the checks come before any push, and the pushes append the node ids in order. -/
theorem ffillFollowsItsRule : Obligations.FfillFollowsItsRule := by
  refine ⟨Opcode.ffill.encodedAs_byte, fun s => ⟨fun hk => ?kind, fun hk hfull => ?full, fun hk hroom => ?filled⟩⟩
  case kind => exact exec_ffill_of_error (Frontier.fill_eq_error.2 (.inl ⟨hk, rfl⟩))
  case full => exact exec_ffill_of_error (Frontier.fill_eq_error.2 (.inr ⟨hk, hfull, rfl⟩))
  case filled =>
    have hlen : s.currentQ.size + (List.range s.graph.n.toNat).length ≤ 1024 := by rwa [List.length_range]
    obtain ⟨⟨hkind, hfront⟩, -⟩ := Frontier.foldl_enqueue_induction
      (P := fun p => p.kind = .queue ∧ p.front = s.currentQ.front) (BitVec.ofNat 32)
      (fun p x hp hlt => ⟨hp, Frontier.size_enqueue hlt x⟩) _ s.currentQ ⟨hk, rfl⟩ hlen
    exact ⟨_, exec_ffill_of_ok (Frontier.fill_eq_ok.2 ⟨hk, hroom, rfl⟩), hkind, hfront,
      Frontier.contents_foldl_enqueue _ _ _ hlen⟩

/-! #### The refinement to a bounded list (R292) -/

section Refinement
variable {q : Frontier}

theorem listRunOps_push_of_room {l : List Word} (x : Word) (ops : List QueueOp) (h : l.length ≠ 1024) :
    listRunOps (.push x :: ops) l = listRunOps ops (l ++ [x]) := if_neg h

theorem listRunOps_push_of_full {l : List Word} (x : Word) (ops : List QueueOp) (h : l.length = 1024) :
    listRunOps (.push x :: ops) l = .error .frontierFull := if_pos h

/-- The commuting diagram: the contents of the queue after a run are the list after the same run on the contents, with the
same popped values and the same error. -/
theorem Frontier.runOps_map_contents (ops : List QueueOp) (q : Frontier) (hk : q.kind = .queue) (hsize : q.size ≤ 1024) :
    (Frontier.runOps ops q).map (Prod.map id Frontier.contents) = listRunOps ops q.contents := by
  induction ops generalizing q with
  | nil => rfl
  | cons op ops ih =>
    cases op with
    | push x =>
      by_cases hfull : q.size = 1024
      · have herr : q.push x = .error .frontierFull := Frontier.push_eq_error.2 (.inr ⟨hk, hfull, rfl⟩)
        rw [Frontier.runOps, herr, listRunOps_push_of_full x ops (q.contents_length.trans hfull)]
        rfl
      · have hlt : q.size < 1024 := by omega
        have hok : q.push x = .ok (q.enqueue x) := Frontier.push_eq_ok.2 ⟨hk, hfull, rfl⟩
        rw [Frontier.runOps, hok, ok_bind, listRunOps_push_of_room x ops (q.contents_length.trans_ne hfull),
          ← Frontier.contents_enqueue hlt]
        exact ih _ hk (by rw [Frontier.size_enqueue hlt]; omega)
    | pop =>
      by_cases hempty : q.size = 0
      · have herr : q.pop = .error .frontierEmpty := Frontier.pop_eq_error.2 (.inr ⟨hk, hempty, rfl⟩)
        rw [Frontier.runOps, herr, Frontier.contents_eq_nil hempty]
        rfl
      · have hrest := Frontier.size_eq_dropOldest_succ hempty
        rw [Frontier.runOps, Frontier.pop_of_nonempty hk hempty, ok_bind, Frontier.contents_eq_oldest_cons hempty,
          listRunOps, ← ih q.dropOldest hk (by omega)]
        cases Frontier.runOps ops q.dropOldest <;> rfl

/-- A value pushed on an empty ring buffer is its oldest, and the only one. -/
theorem Frontier.oldest_enqueue_of_empty (hempty : q.size = 0) (x : Word) :
    (q.enqueue x).size = 1 ∧ (q.enqueue x).oldest = x := by
  have hlt : q.size < 1024 := by omega
  have hone : (q.enqueue x).size = 1 := by rw [Frontier.size_enqueue hlt, hempty]
  have hcontents : (q.enqueue x).contents = [x] := by
    rw [Frontier.contents_enqueue hlt, Frontier.contents_eq_nil hempty, List.nil_append]
  rw [Frontier.contents_eq_oldest_cons (by omega)] at hcontents
  exact ⟨hone, (List.cons.inj hcontents).1⟩

end Refinement

@[simp] theorem State.nextQ_writeR (s : State) (i : Fin 24) (v : Word) : (s.writeR i v).nextQ = s.nextQ := rfl

/-- FPUSH on an empty next, FSWAP and FPOP give the value back and leave next empty. -/
theorem exec_fpush_fswap_fpop {s t u v : State} {r r' : Byte} (hr : r.toNat < 24) (hr' : r'.toNat < 24)
    (hk : s.nextQ.kind = .queue) (hempty : s.nextQ.isEmpty = true) (ht : exec (.fpush r) s = .next t)
    (hu : exec .fswap t = .next u) (hv : exec (.fpop r') u = .next v) :
    v.r[r'.toNat] = s.readR ⟨r.toNat, hr⟩ ∧ v.nextQ.isEmpty = true := by
  have hsize := s.nextQ.isEmpty_iff_size.1 hempty
  generalize hx : s.readR ⟨r.toNat, hr⟩ = x
  obtain ⟨hone, holdest⟩ := Frontier.oldest_enqueue_of_empty hsize x
  have hpush : s.nextQ.push (s.readR ⟨r.toNat, hr⟩) = .ok (s.nextQ.enqueue x) :=
    Frontier.push_eq_ok.2 ⟨hk, by omega, by rw [hx]⟩
  obtain rfl : s.setNextQ (s.nextQ.enqueue x) = t := Host.Outcome.next.inj ((exec_fpush_of_ok hr hpush).symm.trans ht)
  obtain rfl : (s.setNextQ (s.nextQ.enqueue x)).swapRoles = u := Host.Outcome.next.inj hu
  have hcurrent : (s.setNextQ (s.nextQ.enqueue x)).swapRoles.currentQ = s.nextQ.enqueue x := by
    rw [State.currentQ_swapRoles, State.nextQ_setNextQ]
  have hpop := (congrArg Frontier.pop hcurrent).trans (Frontier.pop_of_nonempty hk (by omega))
  obtain rfl := Host.Outcome.next.inj ((exec_fpop_of_ok hr' hpop).symm.trans hv)
  refine ⟨?value, ?next⟩
  case value => rw [State.writeR_r, Vector.getElem_set_self, holdest]
  case next =>
    rw [State.nextQ_writeR, State.nextQ_setCurrentQ, State.nextQ_swapRoles]
    rfl

/-- Settles O52: the two answers are the two cases of the diagram's right side. -/
theorem frontierRefinesBoundedList : Obligations.FrontierRefinesBoundedList := by
  refine ⟨fun ops q hk hsize => ?_, fun s t u v r r' hr hr' => exec_fpush_fswap_fpop hr hr'⟩
  rw [← Frontier.runOps_map_contents ops q hk hsize]
  cases hrun : Frontier.runOps ops q with
  | error c => exact ⟨nofun, fun _ h => congrArg _ (Except.error.inj h)⟩
  | ok p =>
    obtain ⟨outs', q'⟩ := p
    refine ⟨fun outs l h => ?_, nofun⟩
    obtain ⟨rfl, rfl⟩ := Prod.mk.inj (Except.ok.inj h)
    exact ⟨q', rfl, rfl, q'.isEmpty_iff_contents⟩

end Sys2Proof.Machine

/-! ### Vectors (45_vector.md R320 to R329) -/

namespace Sys2Proof.Machine

/-! #### Lanes and vector register fields (R320, R321, R325) -/

section Fields
variable {s : State} {b : Bank} {d s1 : Byte} {s2 : Word} {x : Src1}

theorem Lanes.lane_zipWith (op : Word → Word → Word) (v w : Lanes) (k : Fin 4) :
    (v.zipWith op w).lane k = op (v.lane k) (w.lane k) := by
  fin_cases k <;> rfl

theorem Lanes.anyZero_iff (v : Lanes) : v.anyZero = true ↔ ∃ k, v.lane k = 0 := by
  simp [Lanes.anyZero, Fin.exists_fin_succ, Lanes.lane, or_assoc]

theorem vectorOk_eq_false (h : ¬ d.toNat < 16) : vectorOk d = false := decide_eq_false h

/-- The three register fields of a lane-wise form, one of them outside the bank. -/
theorem lanewise_fields_eq_false (h : ¬ d.toNat < 16 ∨ ¬ s1.toNat < 16 ∨ ¬ s2.toNat < 16) :
    (vectorOk d && vectorOk s1 && decide (s2.toNat < 16)) = false := by
  rcases h with h | h | h
  · simp [vectorOk_eq_false h]
  · simp [vectorOk_eq_false h]
  · rw [decide_eq_false h, Bool.and_false]

/-- The two register fields of a vector access, one of them outside its bank. -/
theorem vector_access_fields_eq_false (h : ¬ d.toNat < 16 ∨ s.addressOf x = none) :
    (vectorOk d && x.ok .int) = false := by
  rcases h with h | h
  · simp [vectorOk_eq_false h]
  · simp [State.addressOf_eq_none_iff.1 h]

end Fields

/-! #### VADD, VSUB and VMUL (R322, R323, R324) -/

/-- An opcode that concludes the shared lane-wise form with a total operation on each lane follows the lane-wise rule. -/
theorem laneRule_of_exec {mk : Bank → Byte → Byte → Word → Instr} (op : Bank → Word → Word → Word)
    (h : ∀ b d s1 s2 s, exec (mk b d s1 s2) s = conclude s (s.lanewise b d s1 s2 fun x y => .ok (x.zipWith (op b) y))) :
    LaneRule mk (op .int) (op .float) := by
  refine ⟨fun s d s1 s2 hd h1 h2 => ?int, fun s d s1 s2 hd h1 h2 => ?float, fun s b d s1 s2 hbad => ?badField⟩
  case int => rw [h, State.lanewise_of_lt hd h1 h2]; rfl
  case float => rw [h, State.lanewise_of_lt hd h1 h2]; rfl
  case badField =>
    have hchecked := s.lanewise_checked b d s1 s2 (op := fun x y => .ok (x.zipWith (op b) y)) fun x y => .ok _
    rw [h, hchecked.illFormed (lanewise_fields_eq_false hbad), conclude_error]
    rfl

/-- Settles O53: the three opcodes conclude the shared lane-wise form with their bank's operation. -/
theorem vaddVsubVmulFollowTheirRules : Obligations.VaddVsubVmulFollowTheirRules :=
  ⟨Opcode.vadd.encodedAs_byte, laneRule_of_exec addWord fun _ _ _ _ _ => rfl,
    Opcode.vsub.encodedAs_byte, laneRule_of_exec subWord fun _ _ _ _ _ => rfl,
    Opcode.vmul.encodedAs_byte, laneRule_of_exec mulWord fun _ _ _ _ _ => rfl⟩

/-! #### VDIV (R325) -/

section Vdiv
variable {s : State} {d s1 : Byte} {s2 : Word}

/-- VDIV whose divisor passes its check writes the quotient of each lane. -/
theorem exec_vdiv_of_ok {b : Bank} (hd : d.toNat < 16) (h1 : s1.toNat < 16) (h2 : s2.toNat < 16)
    (hdivisor : ¬ (b = .int ∧ (s.readVector b ⟨s2.toNat, h2⟩).anyZero = true)) :
    exec (.vdiv b d s1 s2) s = .next (s.writeVector b ⟨d.toNat, hd⟩
      ((s.readVector b ⟨s1.toNat, h1⟩).zipWith (quotWord b) (s.readVector b ⟨s2.toNat, h2⟩))) := by
  show execVdiv b d s1 s2 s = _
  rw [execVdiv, State.lanewise_of_lt hd h1 h2, if_neg hdivisor, ok_bind, conclude_ok]

/-- An integer VDIV with a zero divisor lane is DIV_ZERO, whatever the other lanes are. -/
theorem exec_vdiv_of_zero_lane (hd : d.toNat < 16) (h1 : s1.toNat < 16) (h2 : s2.toNat < 16)
    (hzero : (s.readVector .int ⟨s2.toNat, h2⟩).anyZero = true) :
    exec (.vdiv .int d s1 s2) s = .next (s.raise .divZero) := by
  show execVdiv .int d s1 s2 s = _
  rw [execVdiv, State.lanewise_of_lt hd h1 h2, if_pos ⟨rfl, hzero⟩, error_bind, conclude_error]

end Vdiv

/-- Settles O54: the check of the four divisor lanes in the integer bank alone, then the scalar quotient of each lane. -/
theorem vdivFollowsItsRule : Obligations.VdivFollowsItsRule := by
  refine ⟨Opcode.vdiv.encodedAs_byte, fun s d s1 s2 hd h1 h2 => ⟨fun hzero => ?zero, fun hne => ?quotient, ?float⟩,
    fun s b d s1 s2 hbad => ?badField⟩
  case zero => exact exec_vdiv_of_zero_lane hd h1 h2 ((Lanes.anyZero_iff _).2 hzero)
  case quotient =>
    refine ⟨_, fun k => ?_, exec_vdiv_of_ok (b := .int) hd h1 h2 fun ⟨_, hany⟩ => ?_⟩
    · rw [Lanes.lane_zipWith]
      exact intQuotient_toInt _ _
    · obtain ⟨k, hk⟩ := (Lanes.anyZero_iff _).1 hany
      exact hne k hk
  case float => exact ⟨_, Lanes.lane_zipWith fdiv32 _ _, exec_vdiv_of_ok (b := .float) hd h1 h2 fun h => nomatch h.1⟩
  case badField => exact exec_of_illFormed s (lanewise_fields_eq_false hbad)

/-! #### VLD and VST (R326, R327) -/

section Access
variable {s : State} {b : Bank} {d : Byte} {x : Src1} {a : Nat} {c : Cause}

/-- VLD whose checks pass writes the four cells from its address on to the register. -/
theorem exec_vld_of_ok (hd : d.toNat < 16) (ha : s.effAddr 4 x = .ok a) :
    exec (.vld b d x) s = .next (s.writeVector b ⟨d.toNat, hd⟩ (s.readMem4 a)) := by
  show execVld b d x s = _
  rw [execVld, vectorIndex_of_lt hd, ok_bind, ha, ok_bind, conclude_ok]

theorem exec_vld_of_error (hd : d.toNat < 16) (ha : s.effAddr 4 x = .error c) :
    exec (.vld b d x) s = .next (s.raise c) := by
  show execVld b d x s = _
  rw [execVld, vectorIndex_of_lt hd, ok_bind, ha, error_bind, conclude_error]

/-- VST whose checks pass writes the register to the four cells from its address on. -/
theorem exec_vst_of_ok (hd : d.toNat < 16) (ha : s.effAddr 4 x = .ok a) :
    exec (.vst b d x) s = .next (s.writeMem4 a (s.readVector b ⟨d.toNat, hd⟩)) := by
  show execVst b d x s = _
  rw [execVst, vectorIndex_of_lt hd, ok_bind, ha, ok_bind, conclude_ok]

theorem exec_vst_of_error (hd : d.toNat < 16) (ha : s.effAddr 4 x = .error c) :
    exec (.vst b d x) s = .next (s.raise c) := by
  show execVst b d x s = _
  rw [execVst, vectorIndex_of_lt hd, ok_bind, ha, error_bind, conclude_error]

/-- VST whose checks pass leaves lane k in cell a + k, and every other cell and the rest of the state as they were. -/
theorem exec_vst_stores (hd : d.toNat < 16) (hx : s.addressOf x = some (a : Int)) (ha : a + 4 ≤ 65536) :
    ∃ t, exec (.vst b d x) s = .next t ∧ t = { s with mem := t.mem } ∧
      (∀ k : Fin 4, t.readMem (a + k.val) = (s.readVector b ⟨d.toNat, hd⟩).lane k) ∧
      ∀ c, ¬ (a ≤ c ∧ c < a + 4) → t.readMem c = s.readMem c :=
  ⟨_, exec_vst_of_ok hd (State.effAddr_of_addressOf hx ha), rfl, s.readMem_writeMem4_lane a _,
    fun c => s.readMem_writeMem4_other a c _⟩

end Access

/-- Settles O55: the field checks come first, then the four cells' address, and the load writes its one register. -/
theorem vldFollowsItsRule : Obligations.VldFollowsItsRule := by
  refine ⟨Opcode.vld.encodedAs_byte, fun s d x => ⟨fun b hbad => ?badField, fun b a hd hx ha => ?badAddress,
    fun a hd hx ha => ?loaded⟩⟩
  case badField => exact exec_of_illFormed s (vector_access_fields_eq_false hbad)
  case badAddress => exact exec_vld_of_error hd (State.effAddr_of_addressOf_outside hx ha)
  case loaded =>
    have haddr := State.effAddr_of_addressOf hx ha
    exact ⟨exec_vld_of_ok (b := .int) hd haddr, exec_vld_of_ok (b := .float) hd haddr⟩

/-- Settles O56: the field checks come first, then the four cells' address, and in either bank the store writes those
cells. -/
theorem vstFollowsItsRule : Obligations.VstFollowsItsRule := by
  refine ⟨Opcode.vst.encodedAs_byte, fun s d x => ⟨fun b hbad => ?badField, fun b a hd hx ha => ?badAddress,
    fun b a hd hx ha => ?stored⟩⟩
  case badField => exact exec_of_illFormed s (vector_access_fields_eq_false hbad)
  case badAddress => exact exec_vst_of_error hd (State.effAddr_of_addressOf_outside hx ha)
  case stored =>
    cases b with
    | int => exact exec_vst_stores (b := .int) hd hx ha
    | float => exact exec_vst_stores (b := .float) hd hx ha

/-! #### VSET and VSUM (R328, R329) -/

section ScalarAndVector
variable {s : State} {b : Bank} {d : Byte}

/-- VSET with a vector register as destination writes the value its source reads to every lane. -/
theorem exec_vset_of_ok {x : Src1} {v : Word} (hd : d.toNat < 16) (hx : s.src1 b x = .ok v) :
    exec (.vset b d x) s = .next (s.writeVector b ⟨d.toNat, hd⟩ (Lanes.broadcast v)) := by
  show execVset b d x s = _
  rw [execVset, vectorIndex_of_lt hd, ok_bind, hx, ok_bind, conclude_ok]

/-- VSUM with registers of the banks adds the lanes to what the destination's read port gives. -/
theorem exec_vsum_of_ok {i : Byte} (hd : d.toNat < b.scalars) (hi : i.toNat < 16) :
    exec (.vsum b d i) s = .next (s.writeScalar b ⟨d.toNat, hd⟩
      (Lanes.accumulate (addWord b) (s.readScalar b ⟨d.toNat, hd⟩) (s.readVector b ⟨i.toNat, hi⟩))) := by
  show execVsum b d i s = _
  rw [execVsum, scalarIndex_of_lt hd, ok_bind, vectorIndex_of_lt hi, ok_bind, conclude_ok]

end ScalarAndVector

/-- Settles O57: in each form every lane takes what the source reads. -/
theorem vsetFollowsItsRule : Obligations.VsetFollowsItsRule := by
  refine ⟨Opcode.vset.encodedAs_byte, fun s d i hd hi => ?intReg, fun s d i hd hi => ?floatReg,
    fun s d v hd => ⟨?intImm, ?floatImm⟩, fun s b d x hbad => ?badField⟩
  case intReg => exact exec_vset_of_ok (b := .int) hd (s.src1_reg (b := .int) hi)
  case floatReg => exact exec_vset_of_ok (b := .float) hd (s.src1_reg (b := .float) hi)
  case intImm => exact exec_vset_of_ok (b := .int) hd (s.src1_imm .int v)
  case floatImm => exact exec_vset_of_ok (b := .float) hd (s.src1_imm .float v)
  case badField =>
    refine exec_of_illFormed s ?_
    rcases hbad with h | h
    · simp [Instr.wellFormed, vectorOk_eq_false h]
    · simp [Instr.wellFormed, Src1.ok_eq_false h]

/-- Settles O58: in each bank the accumulation starts from the old destination and takes the lanes in order. -/
theorem vsumFollowsItsRule : Obligations.VsumFollowsItsRule := by
  refine ⟨Opcode.vsum.encodedAs_byte, fun s d i hd hi => ?int, fun s d i hd hi => ?float, fun s b d i hbad => ?badField⟩
  case int => exact exec_vsum_of_ok (b := .int) hd hi
  case float => exact exec_vsum_of_ok (b := .float) hd hi
  case badField =>
    refine exec_of_illFormed s ?_
    rcases hbad with h | h
    · simp [Instr.wellFormed, vectorOk_eq_false h]
    · simp [Instr.wellFormed, scalarOk_eq_false h]

end Sys2Proof.Machine

/-! ### The multicore opcodes (46_multicore.md R360 to R364) -/

namespace Sys2Proof

/-- From 0x22 up the opcode map holds the four multicore opcodes only (R113). -/
theorem Opcode.multicore_of_le_byte {o : Opcode} (h : 0x22 ≤ o.byte.toNat) :
    o = .parallel ∨ o = .barrier ∨ o = .lock ∨ o = .unlock := by
  cases o with
  | parallel | barrier | lock | unlock => simp
  | _ => exact absurd h (by decide)

/-- A word whose opcode byte is 0x22 to 0x25 decodes to a multicore instruction. -/
theorem decode_multicore {w : ProgWord} (hlo : 0x22 ≤ (fieldsOf w).op.toNat) (hhi : (fieldsOf w).op.toNat ≤ 0x25) :
    ∃ i, decode w = .ok i ∧ (i = .parallel ∨ i = .barrier ∨ i = .lock ∨ i = .unlock) := by
  obtain ⟨o, ho⟩ := Opcode.exists_byte_eq_iff.2 (Nat.lt_succ_of_le hhi)
  refine ⟨assemble o (fieldsOf w), o.encodedAs_byte w ho.symm, ?_⟩
  rcases Opcode.multicore_of_le_byte (ho ▸ hlo) with rfl | rfl | rfl | rfl <;> simp [assemble]

end Sys2Proof

namespace Sys2Proof.Machine

theorem exec_parallel (s : State) : exec .parallel s = .next s := rfl

theorem exec_barrier (s : State) : exec .barrier s = .next s := rfl

theorem exec_lock (s : State) : exec .lock s = .next s := rfl

theorem exec_unlock (s : State) : exec .unlock s = .next s := rfl

/-- The multicore instructions are no-ops, at every state (R364). -/
theorem exec_multicore {i : Instr} (h : i = .parallel ∨ i = .barrier ∨ i = .lock ∨ i = .unlock) (s : State) :
    exec i s = .next s := by
  rcases h with rfl | rfl | rfl | rfl
  · exact exec_parallel s
  · exact exec_barrier s
  · exact exec_lock s
  · exact exec_unlock s

/-- With the input line low, a tick whose execute writes nothing is the fetch, the latches and the counter (R130). -/
theorem step_of_exec_unchanged {s : State} {i : Instr} (hp : s.pstate = .running) (hpc : s.pc.toNat < 8192)
    (habort : s.hostAbort = false) (hd : decode s.fetchWord = .ok i)
    (hu : exec i (s.beforeExecute s.fetchWord) = .next (s.beforeExecute s.fetchWord)) :
    step s = .next (s.beforeExecute s.fetchWord).countClock := by
  have hline : (s.beforeExecute s.fetchWord).countClock.hostAbort = false := habort
  rw [step, tick_of_exec hp hpc hd hu, State.sampleAbort_of_not_abort _ hline]

/-- Settles O59: each of the four executes as the no-op, so its tick is what the fetch, the decoder and the counter do. -/
theorem multicoreOpcodesAreNoOps : Obligations.MulticoreOpcodesAreNoOps := by
  refine ⟨Opcode.parallel.encodedAs_byte, Opcode.barrier.encodedAs_byte, Opcode.lock.encodedAs_byte,
    Opcode.unlock.encodedAs_byte, fun s => ⟨exec_parallel s, exec_barrier s, exec_lock s, exec_unlock s⟩, ?tick⟩
  case tick =>
    intro s hp hpc habort w f hlo hhi
    obtain ⟨i, hd, hi⟩ := decode_multicore hlo hhi
    exact step_of_exec_unchanged hp hpc habort hd (exec_multicore hi _)

end Sys2Proof.Machine

/-! ### Precise errors, and the order of a tick's events (60_exceptions.md R371 to R375) -/

namespace Sys2Proof.Machine

/-! #### The causes an execute can record (R371) -/

/-- A cause that only an execute raises: not NONE, not the decoder's DECODE, not the hook's HOST_ABORT. -/
def Cause.OfExecute (c : Cause) : Prop := 2 ≤ c.code.toNat ∧ c.code.toNat ≤ 11

theorem Cause.ofExecute_of_operational {c : Cause} (h : c.operational = true) : c.OfExecute := by
  cases c with
  | noError | decode | branchTarget | iterIndex | regIndex | hostAbort => simp [Cause.operational] at h
  | memAddress | divZero | nodeRange | csrBounds | frontierFull | frontierEmpty | frontierKind =>
    simp [Cause.OfExecute, Cause.code]

end Sys2Proof.Machine

namespace Sys2Proof
open Machine

theorem Instr.fieldCause_ofExecute (i : Instr) : i.fieldCause.OfExecute := by
  rcases i.fieldCause_cases with h | h | h <;> simp [h, Cause.OfExecute, Cause.code]

end Sys2Proof

namespace Sys2Proof.Machine

/-- Taking an error is the three report registers written on the start state (R373, R374). -/
theorem State.raise_eq_inError (s : State) (c : Cause) : s.raise c = s.inError c.code := rfl

/-- Settles O22: an execute that errs has raised its field's cause or an operational one on the start state. -/
theorem errorsArePrecise : Obligations.ErrorsArePrecise := by
  intro i s t hs h ht
  have raised : ∃ c : Cause, c.OfExecute ∧ t = s.raise c := by
    rcases exec_errored hs h ht with ⟨-, he⟩ | ⟨-, c, hc, he⟩
    · exact ⟨i.fieldCause, i.fieldCause_ofExecute, he⟩
    · exact ⟨c, Cause.ofExecute_of_operational hc, he⟩
  obtain ⟨c, ⟨hlo, hhi⟩, rfl⟩ := raised
  exact ⟨c.code, hlo, hhi, s.raise_eq_inError c⟩

/-! #### The five events of a tick (R375) -/

/-- Settles O11: each event's tick, with the decode fault, the latches, the counter and the abort written out. -/
theorem tickFollowsThePipeline : Obligations.TickFollowsThePipeline := by
  refine fun abort s => ⟨tick_of_not_running, tick_of_off_end, fun hp hpc =>
    ⟨fun e hd => ?decodeError, fun i t hd hu => ?execute⟩⟩
  case decodeError => exact tick_of_decode_error hp hpc hd
  case execute =>
    have hexec : exec i (s.beforeExecute s.fetchWord) = .next t := hu
    exact tick_of_exec hp hpc hd hexec

end Sys2Proof.Machine

/-! ### The reset state, the reset port and the first step (10_state.md R55; 70_reset_and_hazards.md R400 to R402) -/

namespace Sys2Proof.Machine

/-! #### What the reset state's register files, cursors, memories and frontiers hold (R55) -/

theorem State.reset_r (i : Fin 24) : State.reset.r[i.val] = 0 := Vector.getElem_replicate ..

theorem State.reset_f (i : Fin 18) : State.reset.f[i.val] = 0 := Vector.getElem_replicate ..

theorem State.reset_vectors (i : Fin 16) :
    State.reset.vr[i.val] = ⟨0, 0, 0, 0⟩ ∧ State.reset.vf[i.val] = ⟨0, 0, 0, 0⟩ :=
  ⟨Vector.getElem_replicate .., Vector.getElem_replicate ..⟩

theorem State.reset_niter (k : Fin 4) : State.reset.niter[k.val] = 0 := Vector.getElem_replicate ..

theorem State.reset_readMem (a : Nat) : State.reset.readMem a = 0 := Memory.read_nil a

theorem State.reset_readProg (a : Nat) : Memory.read State.reset.prog a = 0 := Memory.read_nil a

theorem State.reset_q (j : Fin 2) : State.reset.q[j.val] = Frontier.reset := Vector.getElem_replicate ..

/-- Both frontiers are QUEUEs with both counters 0 (R49). -/
theorem State.reset_q_empty (j : Fin 2) :
    State.reset.q[j.val].kind = .queue ∧ State.reset.q[j.val].front = 0 ∧ State.reset.q[j.val].back = 0 := by
  rw [State.reset_q]
  exact ⟨rfl, rfl, rfl⟩

/-! #### The first step (R402) -/

/-- The word at index 0 is 0, the encoding of HALT (40_control.md R151). -/
theorem State.reset_decode : decode State.reset.fetchWord = .ok .halt :=
  Opcode.halt.encodedAs_byte _ (by decide)

/-- Latching the zero word over latches that are 0 changes nothing but PC (30_encoding.md R119). -/
theorem State.reset_beforeExecute : State.reset.beforeExecute State.reset.fetchWord = State.reset.advancePc := rfl

/-- EXIT_PC is the index of the HALT, which is 0: the report registers keep their reset values. -/
theorem State.reset_step : step State.reset = .next { State.reset with pc := 1, clock := 1, pstate := .halted } := by
  have hstep : step State.reset = .next State.reset.advancePc.halt.countClock := by
    rw [step, tick_of_halt rfl (by decide) State.reset_decode, State.reset_beforeExecute]
  exact hstep

/-- Settles O1: the arrays entry by entry, the other fields as they stand in the reset state, and the HALT at index 0. -/
theorem constructionStateHaltsAtOnce : Obligations.ConstructionStateHaltsAtOnce :=
  ⟨State.reset_r, State.reset_f, State.reset_vectors, rfl, rfl, rfl, State.reset_niter, rfl, State.reset_readMem,
    State.reset_q_empty, rfl, rfl, rfl, rfl, rfl, rfl, rfl, rfl, rfl, rfl, State.reset_readProg, rfl, State.reset_step⟩

/-! #### The reset port (R400, R401) -/

@[simp] theorem State.resetPort_prog (s : State) : s.resetPort.prog = s.prog := rfl

@[simp] theorem State.resetPort_graph (s : State) : s.resetPort.graph = s.graph := rfl

/-- Of the state before, the reset port reads program memory and the graph alone. -/
theorem State.resetPort_congr {s t : State} (hprog : s.prog = t.prog) (hgraph : s.graph = t.graph) :
    s.resetPort = t.resetPort := by
  rw [State.resetPort, State.resetPort, hprog, hgraph]

/-- Settles O4: idempotent because the two parts it reads are kept; every other part is that of the reset state. -/
theorem resetPortIsIdempotent : Obligations.ResetPortIsIdempotent := by
  refine ⟨fun s => ?idempotent, fun _ _ => State.resetPort_congr, fun s => ?fields⟩
  case idempotent => exact State.resetPort_congr s.resetPort_prog s.resetPort_graph
  case fields =>
    exact ⟨s.resetPort_prog, s.resetPort_graph, rfl, rfl, rfl, State.reset_r, State.reset_f, State.reset_vectors,
      State.reset_niter, rfl, State.reset_readMem, State.reset_q_empty, rfl, rfl, rfl, rfl, rfl, rfl, rfl, rfl, rfl, rfl⟩

end Sys2Proof.Machine
